-- ==== Sys2Proof/Word.lean ====
section
/-! DEFINITION. The word types of the hardware (spec/00_scope.md R5, R9, R11). -/

namespace Sys2Proof

/-- A fixed-point scalar: the 16-bit two's-complement pattern of a raw value (R5, R9, R23).
Its raw value is `BitVec.toInt`. -/
abbrev S16 := BitVec 16

/-- A 32-bit word: a control register or a command word (R9, R25, R80). -/
abbrev U32 := BitVec 32

/-- The 32-bit pattern of an IEEE 754 binary32 number (R11, R24). -/
abbrev F32 := BitVec 32

/-- A stage id, the width of `STATUS.STAGE` (R27, R88). -/
abbrev StageId := BitVec 4

/-- An error code, the width of `STATUS.ERRCODE` (R27, R206). -/
abbrev ErrCode := BitVec 4

/-- A command opcode, the width of `STATUS.CUR` (R27, R80). -/
abbrev Opcode := BitVec 8

end Sys2Proof
end

