-- ==== Sys2Proof/Syntax.lean ====
section
/-! DEFINITION. The commands, one constructor per row of spec/opcode_table.json (spec/30_encoding.md
R81). No command has an operand: the opcode alone names what it reads and writes (R82). -/

namespace Sys2Proof

/-- The twelve commands (R81). -/
inductive Instr where
  | nop
  | conv1
  | pool1
  | conv2
  | pool2
  | fc1
  | fc2
  | softmax
  | argmax
  | quant
  | dequant
  | forward
deriving DecidableEq, Repr

end Sys2Proof
end

