-- ==== Sys2Proof/Decode.lean ====
section
/-! DEFINITION. The command word: decoder and encoder (spec/30_encoding.md R80 to R83). -/

namespace Sys2Proof

/-- Why a word is no command word (R83). -/
inductive IllegalWord where
  | upperBitsSet     -- bits 31:8 are not all 0
  | reservedOpcode   -- bits 7:0 are a reserved opcode
deriving DecidableEq, Repr

/-- The opcode map of R81, one row per command. -/
def opcodeTable : List (Opcode × Instr) :=
  [(0x00#8, .nop), (0x01#8, .conv1), (0x02#8, .pool1), (0x03#8, .conv2), (0x04#8, .pool2),
   (0x05#8, .fc1), (0x06#8, .fc2), (0x07#8, .softmax), (0x08#8, .argmax), (0x09#8, .quant),
   (0x0A#8, .dequant), (0x0F#8, .forward)]

/-- The command of an opcode; none for the reserved opcodes (R81, R83). -/
def lookupOpcode (op : Opcode) : List (Opcode × Instr) → Option Instr
  | [] => none
  | (o, i) :: rows => if o = op then some i else lookupOpcode op rows

/-- The opcode field, bits 7:0 (R80). -/
def opcodeField (w : U32) : Opcode := w.extractLsb' 0 8

/-- The field that must be zero, bits 31:8 (R80). -/
def zeroField (w : U32) : BitVec 24 := w.extractLsb' 8 24

/-- The decoder: all 32 bits are matched, and every other word is illegal (R81, R83). -/
def decode (w : U32) : Except IllegalWord Instr :=
  if zeroField w = 0#24 then
    match lookupOpcode (opcodeField w) opcodeTable with
    | some i => .ok i
    | none => .error .reservedOpcode
  else .error .upperBitsSet

/-- The command word of a command, written out from R81. -/
def encode : Instr → U32
  | .nop => 0x00000000#32
  | .conv1 => 0x00000001#32
  | .pool1 => 0x00000002#32
  | .conv2 => 0x00000003#32
  | .pool2 => 0x00000004#32
  | .fc1 => 0x00000005#32
  | .fc2 => 0x00000006#32
  | .softmax => 0x00000007#32
  | .argmax => 0x00000008#32
  | .quant => 0x00000009#32
  | .dequant => 0x0000000A#32
  | .forward => 0x0000000F#32

/-- The opcode of a command: bits 7:0 of its word (R80, R81). -/
def Instr.opcode (i : Instr) : Opcode := opcodeField (encode i)

/-- `first(op)`: the first stage of a command (R88). -/
def Instr.firstStage (i : Instr) : StageId :=
  if i = .forward then 1#4 else i.opcode.extractLsb' 0 4

/-- `last(op)`: the last stage of a command (R88). -/
def Instr.lastStage (i : Instr) : StageId :=
  if i = .forward then 7#4 else i.opcode.extractLsb' 0 4

/-- The command that the decoder reads from a table row's bits. A command is one 32-bit word and is
stored in no memory (R80), so the word is given to the decoder as the host would write it to CMD. -/
def decodeTableWord (nbits w : Nat) : Option Instr :=
  if nbits ≤ 32 ∧ w < 2 ^ 32 then
    match decode (BitVec.ofNat 32 w) with
    | .ok i => some i
    | .error _ => none
  else none

end Sys2Proof
end

