-- ==== Sys2Proof/Bus.lean ====
section
/-! DEFINITION. What the host can name and do at the block's interface (spec/10_state.md R21, R22,
R25; spec/20_memory.md R50; spec/30_encoding.md R86; spec/70_reset_and_hazards.md R234). -/

namespace Sys2Proof

/-- The fifteen spaces of 16-bit elements (R21, R22). PROB, of 32-bit elements, stands apart. -/
inductive Space16 where
  | img | c1 | p1 | c2 | p2 | h1 | logit
  | wC1 | bC1 | wC2 | bC2 | wF1 | bF1 | wF2 | bF2
deriving DecidableEq, Repr

/-- The eight control registers, in index order (R25). -/
inductive Csr where
  | cmd | status | cfg | qIn | qOut | dqIn | dqOut | amax
deriving DecidableEq, Repr

/-- One element of one space: what a legal address names (R50). -/
inductive Location where
  | mem16 (sp : Space16) (i : Nat)
  | prob (i : Nat)
  | csr (r : Csr)
deriving DecidableEq, Repr

/-- An address as the host writes it: space id and element index (R50). Not every one is legal (R54). -/
structure Addr where
  space : Nat
  index : Nat
deriving DecidableEq, Repr

/-- One whole element on the interface, in the width its space fixes (R50). -/
inductive Element where
  | s16 (v : S16)
  | w32 (v : U32)
deriving DecidableEq, Repr

/-- The host moves of R234 and the one derived move `WAIT` of R86. `writeBack` is the line
`WR <address>, q` of R87 where `q` is the value the last read returned. -/
inductive HostMove where
  | read (a : Addr)
  | write (a : Addr) (v : Element)
  | writeBack (a : Addr)
  | wait
  | reset
deriving DecidableEq, Repr

/-- One entry of the interleaving of the two agents (R8): a move of the host, or a turn of the core.
DESIGN CHOICE (log 2): the order of the two agents is plain data. -/
inductive Event where
  | host (m : HostMove)
  | core
deriving DecidableEq, Repr

end Sys2Proof
end

