-- ==== Sys2Proof/Machine/Float.lean ====
section
/-! DEFINITION. Binary32 arithmetic by exact integers (spec/00_scope.md R11).

Every finite binary32 is an integer multiple of 2^-149, the smallest subnormal. `F32.scaled` is
that integer, so a real number is held here as an exact numerator over an exact denominator in
units of 2^-149, and each operation rounds once, at its end. -/

namespace Sys2Proof

/-- Bit 31, the sign (R11). -/
def F32.sign (p : F32) : Bool := p.msb

/-- Bits 30 to 0, exponent and fraction together: among patterns of one sign their order is the
order of the absolute values (R11). -/
def F32.mag (p : F32) : Nat := p.toNat % 2 ^ 31

/-- Exponent field all ones and fraction not zero (R11). -/
def F32.isNaN (p : F32) : Bool := decide (0x7F800000 < p.mag)

/-- Exponent field all ones and fraction zero (R11). -/
def F32.isInf (p : F32) : Bool := decide (p.mag = 0x7F800000)

/-- Neither a NaN nor an infinity (R11). -/
def F32.isFinite (p : F32) : Bool := decide (p.mag < 0x7F800000)

/-- The absolute value of a finite pattern in units of 2^-149: fraction alone for a subnormal,
otherwise 2^23 + fraction, scaled by the exponent field (R11). -/
def F32.scaledMag (p : F32) : Nat :=
  if p.mag / 2 ^ 23 = 0 then p.mag % 2 ^ 23
  else (2 ^ 23 + p.mag % 2 ^ 23) * 2 ^ (p.mag / 2 ^ 23 - 1)

/-- `real(p)` in units of 2^-149, for a finite pattern (R11). -/
def F32.scaled (p : F32) : Int := if p.sign then -(p.scaledMag : Int) else p.scaledMag

/-- `n / d` rounded to the nearest integer, ties to the even one. -/
def roundHalfEven (n d : Nat) : Nat :=
  if 2 * (n % d) < d then n / d
  else if d < 2 * (n % d) then n / d + 1
  else if n / d % 2 = 0 then n / d
  else n / d + 1

/-- `n / d` rounded to the nearest integer, ties upwards: on absolute values this is 'ties away
from zero'. -/
def roundHalfUp (n d : Nat) : Nat := (2 * n + d) / (2 * d)

/-- Bits 30 to 0 of `rne32` of the non-negative real number `(n / d) * 2^-149` (R11). With `e`
the number of binary places above the subnormal spacing, the nearest multiple `k` of `2^e` has the
pattern `e * 2^23 + k`, the carry into the exponent included. A value that rounds above the largest
finite number gives the pattern of infinity: PRESUMED, IEEE 754 (log 8). -/
def F32.rneMag (n d : Nat) : Nat :=
  let e := (n / d).log2 - 23
  min (e * 2 ^ 23 + roundHalfEven n (d * 2 ^ e)) 0x7F800000

/-- `rne32` of `±(n / d) * 2^-149`: round to nearest, ties to even (R11). A result of zero keeps the sign `neg`; R11 speaks of
real numbers, whose zero has none. PRESUMED, IEEE 754 (log 8). -/
def F32.rne32 (neg : Bool) (n d : Nat) : F32 :=
  BitVec.ofNat 32 ((if neg then 2 ^ 31 else 0) + F32.rneMag n d)

/-- `rne32` of the real number `z * 2^-149`; zero gives +0.0 (R11). -/
def F32.ofScaled (z : Int) : F32 := F32.rne32 (decide (z < 0)) z.natAbs 1

/-- The quiet NaN that an invalid operation answers. PRESUMED (log 8): R11 defines `fadd` and
`fdiv` on real numbers alone. -/
def F32.quietNaN : F32 := 0x7FC00000#32

/-- `fadd(a, b) = rne32(a + b)` (R11). For finite operands this is R11, but for the sign of an exact zero sum, which is +0.0
unless both operands are negative. That sign, and NaN and infinite operands: PRESUMED, IEEE 754 (log 8). -/
def F32.fadd (a b : F32) : F32 :=
  if a.isNaN || b.isNaN then F32.quietNaN
  else if a.isInf then (if b.isInf && (a.sign != b.sign) then F32.quietNaN else a)
  else if b.isInf then b
  else if a.scaled + b.scaled = 0 then (if a.sign && b.sign then 0x80000000#32 else 0#32)
  else F32.ofScaled (a.scaled + b.scaled)

/-- `fdiv(a, b) = rne32(a / b)` (R11). For finite operands and `b` not zero this is R11, but for the sign of a zero result (a
zero dividend, or a quotient that underflows), which is the exclusive-or of the signs of the operands. That sign, and NaN,
infinite and zero divisors: PRESUMED, IEEE 754 (log 8). -/
def F32.fdiv (a b : F32) : F32 :=
  let neg := a.sign != b.sign
  if a.isNaN || b.isNaN then F32.quietNaN
  else if a.isInf then
    (if b.isInf then F32.quietNaN else F32.rne32 neg 0 1 ||| 0x7F800000#32)
  else if b.isInf then F32.rne32 neg 0 1
  else if b.scaledMag = 0 then
    (if a.scaledMag = 0 then F32.quietNaN else F32.rne32 neg 0 1 ||| 0x7F800000#32)
  else F32.rne32 neg (a.scaledMag * 2 ^ 149) b.scaledMag

/-- The place of a pattern that is no NaN in the order of the reals with both infinities; the two
zeros share one place (R11). -/
def F32.key (p : F32) : Int := if p.sign then -(p.mag : Int) else p.mag

/-- `flt(a, b)`: the ordered `a < b`, false when either operand is a NaN (R11). -/
def F32.flt (a b : F32) : Bool := !a.isNaN && !b.isNaN && decide (a.key < b.key)

/-- `fgt(a, b)`: the ordered `a > b`, false when either operand is a NaN (R11). -/
def F32.fgt (a b : F32) : Bool := F32.flt b a

/-- The binary32 whose real value is `z / 2^F`, rounded once (the quotient is exact for the integers of R104 and
R162, which have at most 16 significant bits). -/
def F32.ofFixed (F : Nat) (z : Int) : F32 := F32.ofScaled (z * 2 ^ (149 - F))

end Sys2Proof
end

