-- ==== Sys2Proof/Config.lean ====
section
/-! DEFINITION. What a build of the hardware fixes, and the free values (spec/00_scope.md R4 to R7,
R12; spec/92_eei_decisions.md D3, D5, D14, D15, D28).

The build parameters that are plain data stand in the record `BuildConfig`, which State carries and
no step changes; so a statement about every state is a statement about every legal build. The
parameters that are functions, and the unspecified values `draw(T)`, are opaque constants: nothing
can evaluate them or prove a value of them. -/

namespace Sys2Proof

/-- The tie rule of `round` in `quantize` (R7, D5). -/
inductive QuantTie where
  | away   -- ties away from zero: the value the spec takes
  | even   -- ties to the even integer: the named alternative
deriving DecidableEq, Repr

/-- The build parameters that are data (R4, R7). `F` is at most 15 by its type. -/
structure BuildConfig where
  F          : Fin 16
  quantTie   : QuantTie
  softmaxEps : F32
deriving DecidableEq, Repr

/-- The reference build: F = 8, ties away, epsilon 2^-20 (R4, R7). -/
def BuildConfig.reference : BuildConfig :=
  { F := 8, quantTie := .away, softmaxEps := 0x35800000#32 }

/-! ### The exponential (R166)

A pattern of at most `0x3F800000`, read as an unsigned number, is exactly a finite number from +0.0 to 1.0 that is not
-0.0, and among those the order of the patterns is the order of the numbers. -/

/-- E0 of R166: one at zero. -/
def ExpAtZero (exp32 : F32 → F32) : Prop := exp32 0#32 = 0x3F800000#32

/-- E1 of R166: on every argument `-j / 2^F` with `j` at most 65535, a finite number from +0.0 to 1.0. -/
def ExpInRange (exp32 : F32 → F32) (F : Nat) : Prop :=
  ∀ j : Nat, j ≤ 65535 → exp32 (F32.ofFixed F (-(j : Int))) ≤ 0x3F800000#32

/-- E2 of R166: monotone on those arguments. -/
def ExpMonotone (exp32 : F32 → F32) (F : Nat) : Prop :=
  ∀ j k : Nat, j ≤ k → k ≤ 65535 →
    exp32 (F32.ofFixed F (-(k : Int))) ≤ exp32 (F32.ofFixed F (-(j : Int)))

/-- An exponential that meets E0 to E2, for every fraction count `F` up to 15 (log 9). The default of each field says only
that such a function exists. -/
structure ExpUnit where
  /-- The function itself, total on all patterns. -/
  exp32 : F32 → F32 := fun _ => 0x3F800000#32
  e0 : ExpAtZero exp32 := by rfl
  e1 : ∀ F : Nat, F ≤ 15 → ExpInRange exp32 F := by intro _ _ _ _; exact BitVec.le_refl _
  e2 : ∀ F : Nat, F ≤ 15 → ExpMonotone exp32 F := by intro _ _ _ _ _ _; exact BitVec.le_refl _
deriving Inhabited

/-- E3 of R166, the reference instance: on every argument `-j / 2^F` the answer is the binary32
nearest to the exponential, ties to even. A premise a statement may take; the machine does not
assume it. Both sides are scaled by 2^149. -/
def CorrectlyRoundedExp (exp32 : F32 → F32) : Prop :=
  ∀ F j : Nat, F ≤ 15 → j ≤ 65535 →
    let x : ℝ := Real.exp (-(j : ℝ) / 2 ^ F) * 2 ^ 149
    let r := exp32 (F32.ofFixed F (-(j : Int)))
    r.isFinite = true ∧ r.sign = false ∧ ∀ q : F32, q.isFinite = true → q.scaled ≠ r.scaled →
      |(r.scaled : ℝ) - x| < |(q.scaled : ℝ) - x| ∨
      (|(r.scaled : ℝ) - x| = |(q.scaled : ℝ) - x| ∧ r.toNat % 2 = 0)

/-- The base addresses of a platform wrapper that maps the spaces into one flat byte-addressed space: a base for each space
id, such that every element is naturally aligned (R56). An element of PROB (7) and of CSR (16) has four bytes, every other
two, and the offsets are multiples of these, so it is the bases that are aligned. The default of each field says only that
such bases exist. -/
structure PlatformMap where
  base : Nat → Nat := fun _ => 0
  aligned : ∀ id : Nat, base id % (if id = 7 ∨ id = 16 then 4 else 2) = 0 := by
    intro id; exact Nat.zero_mod _
deriving Inhabited

namespace Config

/-- `EXP32`, OPEN: some function with E0 to E2 (R7, R166, D14). -/
opaque expUnit : ExpUnit

/-- `draw(s16)`: the n-th unspecified 16-bit value (R12, R65, R102). -/
opaque draw16 : Nat → S16

/-- `draw(f32)`, and `draw` of a 32-bit register: the n-th unspecified 32-bit value (R12, R60, R65). -/
opaque draw32 : Nat → U32

/-- `draw` of a class index, 0 to 9: the n-th unspecified value for `AMAX` (R65). -/
opaque drawClass : Nat → Fin 10

/-- `BASE_<space>`, OPEN: the byte address a platform wrapper gives each space id (R7, R56, D28). -/
opaque platform : PlatformMap

end Config

/-! ### Shapes (R6) -/

/-- The extents of a convolution: input Z × H × W, kernels K × Z × KH × KW (R120). -/
structure ConvShape where
  Z : Nat
  H : Nat
  W : Nat
  K : Nat
  KH : Nat
  KW : Nat
deriving DecidableEq, Repr

/-- The extents of a max-pool input, C × H × W (R135). -/
structure PoolShape where
  C : Nat
  H : Nat
  W : Nat
deriving DecidableEq, Repr

/-- The extents of a dense operator (R145). -/
structure DenseShape where
  In : Nat
  Out : Nat
deriving DecidableEq, Repr

/-- CONV1: 1 × 28 × 28 by 20 × 1 × 5 × 5 (R6, R121). -/
def conv1Shape : ConvShape := { Z := 1, H := 28, W := 28, K := 20, KH := 5, KW := 5 }

/-- CONV2: 20 × 12 × 12 by 40 × 20 × 5 × 5 (R6, R122). -/
def conv2Shape : ConvShape := { Z := 20, H := 12, W := 12, K := 40, KH := 5, KW := 5 }

/-- POOL1: 20 × 24 × 24 (R6, R136). -/
def pool1Shape : PoolShape := { C := 20, H := 24, W := 24 }

/-- POOL2: 40 × 8 × 8 (R6, R137). -/
def pool2Shape : PoolShape := { C := 40, H := 8, W := 8 }

/-- FC1: 640 to 400 (R6, R146). -/
def fc1Shape : DenseShape := { In := 640, Out := 400 }

/-- FC2: 400 to 10 (R6, R147). -/
def fc2Shape : DenseShape := { In := 400, Out := 10 }

/-- The number of classes (R6). -/
def numClasses : Nat := 10

end Sys2Proof
end

