-- ==== Sys2Proof/Machine/State.lean ====
section
/-! DEFINITION. The state of the machine, the reasons a step can stop, and reset
(spec/10_state.md R20 to R38). -/

namespace Sys2Proof.Machine

/-- One element-indexed memory (R50): the elements that hold a value, as pairs (index, element) with
indices strictly rising. An index that is not listed holds no value (R20, R36, R65). DEDUCED (log 1):
the unit is the element, since the block has no bytes (R50, R53). -/
abbrev Memory (w : Nat) := List (Nat × BitVec w)

/-- The fields of `STATUS` (R27). The reserved bits hold nothing and read 0. -/
structure Status where
  busy    : Bool
  done    : Bool
  err     : Bool
  stage   : StageId
  errCode : ErrCode
  cur     : Opcode
deriving DecidableEq, Repr

/-- Everything the spec gives the machine (R20), the build it is (R7), and the model's own three
fields `draws`, `events` and `rdata`. -/
structure State where
  /-- The build parameters; `CFG` reads its `F` (R7, R28). No step changes it. -/
  cfg : BuildConfig
  -- data memories (R21)
  img   : Memory 16
  c1    : Memory 16
  p1    : Memory 16
  c2    : Memory 16
  p2    : Memory 16
  h1    : Memory 16
  logit : Memory 16
  prob  : Memory 32
  -- weight memories (R22)
  wC1 : Memory 16
  bC1 : Memory 16
  wC2 : Memory 16
  bC2 : Memory 16
  wF1 : Memory 16
  bF1 : Memory 16
  wF2 : Memory 16
  bF2 : Memory 16
  -- control registers (R25); CMD stores nothing (R26), CFG is hardwired (R28)
  status : Status
  /-- `Q_IN`, all 32 bits (R29). -/
  qIn : U32
  /-- `Q_OUT` bits 15:0; bits 31:16 read 0 (R29). -/
  qOut : S16
  /-- `DQ_IN` bits 15:0; bits 31:16 read 0 (R30). -/
  dqIn : S16
  /-- `DQ_OUT` (R30). -/
  dqOut : F32
  /-- `AMAX` bits 3:0; bits 31:4 read 0 (R31). -/
  amax : BitVec 4
  -- the model's own fields
  /-- How many unspecified values have been set aside so far: the index of the next `draw` (R12). -/
  draws : Nat
  /-- What the host is still to do, and when the core has a turn meanwhile (R8, R199). -/
  events : List Event
  /-- The value that the last host read returned. -/
  rdata : Element
deriving DecidableEq, Repr

/-- Why the machine stops. -/
inductive Fault where
  /-- Raised by a turn of the core while BUSY = 1 where `CUR` and `STAGE` name no stage of a command.
  No state that a run reaches has this (R33), and no spec rule gives it an effect. Safe: the model
  stops. -/
  | noSuchStage (cur : Opcode) (stage : StageId)
deriving DecidableEq, Repr

/-- Why the machine does not offer a move. -/
inductive Refusal where
  /-- Raised by `exec` for a command that has no meaning yet; no arm does. Safe: the model stops. -/
  | notModelled (mnemonic : String)
  /-- Raised by a host move whose space id is above 16 or whose index is not below the space's element
  count: no such host move exists (R54, U9). Safe: the model stops. -/
  | noSuchElement (a : Addr)
  /-- Raised by a host write whose value has not the width of the space's elements: no access is narrower
  or wider than one element (R50). Safe: the model stops. -/
  | wrongWidth (a : Addr)
deriving DecidableEq, Repr

/-- `STATUS` after reset: idle, not done, no error (R36). -/
def Status.reset : Status :=
  { busy := false, done := false, err := false, stage := 0#4, errCode := 0#4, cur := 0#8 }

/-- The machine right after reset (R36, R230): every register 0, every memory element without a
value, the block idle. The reference build stands in `cfg` (log 3); no draw has been used, the host
has nothing to do, and it has read nothing (logs 2, 4, 5). -/
def State.reset : State :=
  { cfg := .reference
    img := [], c1 := [], p1 := [], c2 := [], p2 := [], h1 := [], logit := [], prob := []
    wC1 := [], bC1 := [], wC2 := [], bC2 := [], wF1 := [], bF1 := [], wF2 := [], bF2 := []
    status := .reset
    qIn := 0#32, qOut := 0#16, dqIn := 0#16, dqOut := 0#32, amax := 0#4
    draws := 0, events := [], rdata := .w32 0#32 }

end Sys2Proof.Machine
end

