-- ==== Sys2Proof/Machine/Flags.lean ====
section
/-! DEFINITION. The status flags and sequencing fields of `STATUS`: who sets and clears each
(spec/10_state.md R27, R33, R35; spec/46_orchestrator.md R191, R192; spec/60_exceptions.md R210).
No arithmetic operation sets a flag (R35). -/

namespace Sys2Proof.Machine

/-- `STATUS` as the host reads it: CUR in bits 23:16, ERRCODE in 11:8, STAGE in 7:4, ERR, DONE and BUSY
in bits 2, 1 and 0, the rest 0 (R27). -/
def Status.toWord (t : Status) : U32 :=
  0#8 ++ t.cur ++ 0#4 ++ t.errCode ++ t.stage ++ 0#1 ++ BitVec.ofBool t.err
    ++ BitVec.ofBool t.done ++ BitVec.ofBool t.busy

/-- Accepting a command: CUR, STAGE, DONE and BUSY change; ERR and ERRCODE keep their values (R192). -/
def Status.accept (t : Status) (i : Instr) : Status :=
  { t with busy := true, done := false, stage := i.firstStage, cur := i.opcode }

/-- The last step of a command: BUSY 0, DONE 1, STAGE 0; CUR keeps the opcode (R191). -/
def Status.complete (t : Status) : Status :=
  { t with busy := false, done := true, stage := 0#4 }

/-- A step that is not the last: STAGE advances by exactly 1 (R191, R33). -/
def Status.advance (t : Status) : Status := { t with stage := t.stage + 1#4 }

/-- `raise CmdError(code)`, the whole record: ERRCODE keeps the first code, ERR is sticky (R210). -/
def Status.raiseErr (t : Status) (code : ErrCode) : Status :=
  { t with errCode := if t.err then t.errCode else code, err := true }

/-- The end of one sequencer step whose command has `last` as its last stage: complete there, else advance (R191). -/
def Status.endStage (t : Status) (last : StageId) : Status :=
  if t.stage = last then t.complete else t.advance

end Sys2Proof.Machine
end

