-- ==== Sys2Proof/Machine/Memory.lean ====
section
/-! DEFINITION. The operations over one element-indexed memory (spec/20_memory.md R50, R55, R65). -/

namespace Sys2Proof.Machine

/-- `MemRead(S, i)`: the element at index `i`, none where the element holds no value (R12, R65).
This is the one place that says what an index that is not listed reads as. -/
def Memory.read {w : Nat} : Memory w → Nat → Option (BitVec w)
  | [], _ => none
  | (k, v) :: m, i => if i = k then some v else Memory.read m i

/-- `MemWrite(S, i, v)`: one whole element (R12). Keeps the indices strictly rising. -/
def Memory.write {w : Nat} : Memory w → Nat → BitVec w → Memory w
  | [], i, v => [(i, v)]
  | (k, u) :: m, i, v =>
    if i < k then (i, v) :: (k, u) :: m
    else if i = k then (i, v) :: m
    else (k, u) :: Memory.write m i v

/-- `n` entries from index `i` on. -/
def Memory.tabulateFrom {w : Nat} (f : Nat → BitVec w) : Nat → Nat → Memory w
  | 0, _ => []
  | n + 1, i => (i, f i) :: Memory.tabulateFrom f n (i + 1)

/-- The memory whose `n` elements all hold a value: what a stage leaves in its output space, of which it
writes every element (R37). -/
def Memory.tabulate {w : Nat} (n : Nat) (f : Nat → BitVec w) : Memory w :=
  Memory.tabulateFrom f n 0

/-- Indices strictly rising, from `lo` on and below `n`. -/
def Memory.wfFrom {w : Nat} (n : Nat) : Nat → Memory w → Bool
  | _, [] => true
  | lo, (k, _) :: m => decide (lo ≤ k) && decide (k < n) && Memory.wfFrom n (k + 1) m

/-- The canonical form of a memory of `n` elements: indices strictly rising and below `n`. An entry
always holds a value, so none equals what an index that is not listed reads as. -/
def Memory.wf {w : Nat} (n : Nat) (m : Memory w) : Bool := Memory.wfFrom n 0 m

end Sys2Proof.Machine
end

