-- ==== Sys2Proof/Machine/Operands.lean ====
section
/-! DEFINITION. The operand forms. A command's operands are implicit: fixed spaces, reached at indices the
stage's own loops compute (spec/30_encoding.md R82, spec/20_memory.md R50 to R52). Here stand the spaces'
ids and element counts, the linear indices, the lists of index tuples a reduction runs over, and the
resolution of a host address. -/

namespace Sys2Proof

/-! ### Linear indices (R51) -/

/-- `idx3(C,H,W; c,y,x)`: row-major, last axis contiguous (R51). -/
def idx3 (H W c y x : Nat) : Nat := (c * H + y) * W + x

/-- `idx4(K,Z,KH,KW; k,z,ky,kx)` (R51). -/
def idx4 (Z KH KW k z ky kx : Nat) : Nat := ((k * Z + z) * KH + ky) * KW + kx

/-- `idx2(Out,In; k,i)` (R51). -/
def idx2 (In k i : Nat) : Nat := k * In + i

/-! ### Shapes (R6, R120, R135) -/

/-- OH = H - KH + 1 (R120, R123). -/
def ConvShape.OH (g : ConvShape) : Nat := g.H - g.KH + 1

/-- OW = W - KW + 1 (R120, R123). -/
def ConvShape.OW (g : ConvShape) : Nat := g.W - g.KW + 1

/-- The elements of the input tensor, Z × H × W. -/
def ConvShape.inputs (g : ConvShape) : Nat := g.Z * g.H * g.W

/-- The elements of the kernel tensor, K × Z × KH × KW. -/
def ConvShape.weights (g : ConvShape) : Nat := g.K * g.Z * g.KH * g.KW

/-- The elements of the output tensor, K × OH × OW (R123). -/
def ConvShape.outputs (g : ConvShape) : Nat := g.K * g.OH * g.OW

/-- The index triples (z, ky, kx) of one convolution reduction (R120). -/
def ConvShape.taps (g : ConvShape) : List (Nat × Nat × Nat) :=
  (List.range g.Z).flatMap fun z =>
    (List.range g.KH).flatMap fun ky => (List.range g.KW).map fun kx => (z, ky, kx)

/-- The elements of the pooled tensor, C × H/2 × W/2 (R135). -/
def PoolShape.outputs (g : PoolShape) : Nat := g.C * (g.H / 2) * (g.W / 2)

/-! ### Spaces (R21, R22, R25) -/

/-- The space id of each 16-bit space (R21, R22). -/
def Space16.id : Space16 → Nat
  | .img => 0
  | .c1 => 1
  | .p1 => 2
  | .c2 => 3
  | .p2 => 4
  | .h1 => 5
  | .logit => 6
  | .wC1 => 8
  | .bC1 => 9
  | .wC2 => 10
  | .bC2 => 11
  | .wF1 => 12
  | .bF1 => 13
  | .wF2 => 14
  | .bF2 => 15

/-- The element count of each 16-bit space, from the extents of R6. -/
def Space16.size : Space16 → Nat
  | .img => conv1Shape.inputs
  | .c1 => conv1Shape.outputs
  | .p1 => pool1Shape.outputs
  | .c2 => conv2Shape.outputs
  | .p2 => pool2Shape.outputs
  | .h1 => fc1Shape.Out
  | .logit => fc2Shape.Out
  | .wC1 => conv1Shape.weights
  | .bC1 => conv1Shape.K
  | .wC2 => conv2Shape.weights
  | .bC2 => conv2Shape.K
  | .wF1 => fc1Shape.Out * fc1Shape.In
  | .bF1 => fc1Shape.Out
  | .wF2 => fc2Shape.Out * fc2Shape.In
  | .bF2 => fc2Shape.Out

/-- The weight memories, which no command writes (R22). -/
def Space16.isWeight : Space16 → Bool
  | .wC1 | .bC1 | .wC2 | .bC2 | .wF1 | .bF1 | .wF2 | .bF2 => true
  | .img | .c1 | .p1 | .c2 | .p2 | .h1 | .logit => false

/-- The space id of PROB (R21). -/
def probId : Nat := 7

/-- The space id of the control registers (R25). -/
def csrId : Nat := 16

/-- The 16-bit space of a space id (R21, R22). -/
def space16OfId : Nat → Option Space16
  | 0 => some .img
  | 1 => some .c1
  | 2 => some .p1
  | 3 => some .c2
  | 4 => some .p2
  | 5 => some .h1
  | 6 => some .logit
  | 8 => some .wC1
  | 9 => some .bC1
  | 10 => some .wC2
  | 11 => some .bC2
  | 12 => some .wF1
  | 13 => some .bF1
  | 14 => some .wF2
  | 15 => some .bF2
  | _ => none

/-- The index of each control register (R25). -/
def Csr.index : Csr → Nat
  | .cmd => 0
  | .status => 1
  | .cfg => 2
  | .qIn => 3
  | .qOut => 4
  | .dqIn => 5
  | .dqOut => 6
  | .amax => 7

/-- The control register of an index (R25). -/
def csrOfIndex : Nat → Option Csr
  | 0 => some .cmd
  | 1 => some .status
  | 2 => some .cfg
  | 3 => some .qIn
  | 4 => some .qOut
  | 5 => some .dqIn
  | 6 => some .dqOut
  | 7 => some .amax
  | _ => none

/-- The element a host address names; none where no such element exists (R50, R54). -/
def resolve (a : Addr) : Option Location :=
  if a.space = probId then
    if a.index < numClasses then some (.prob a.index) else none
  else if a.space = csrId then
    match csrOfIndex a.index with
    | some r => some (.csr r)
    | none => none
  else
    match space16OfId a.space with
    | some sp => if a.index < sp.size then some (.mem16 sp a.index) else none
    | none => none

/-- The address of element `i` of a 16-bit space. -/
def Space16.addr (sp : Space16) (i : Nat) : Addr := { space := sp.id, index := i }

/-- The address of element `i` of PROB. -/
def probAddr (i : Nat) : Addr := { space := probId, index := i }

/-- The address of a control register. -/
def Csr.addr (r : Csr) : Addr := { space := csrId, index := r.index }

/-- The registers the core owns while BUSY = 1 (R60). -/
def Csr.owned : Csr → Bool
  | .qIn | .qOut | .dqIn | .dqOut | .amax => true
  | .cmd | .status | .cfg => false

end Sys2Proof
end

