-- ==== Sys2Proof/Machine/Ops.lean ====
section
/-! DEFINITION. The named operations over memories and registers, and the recording of an error
(spec/00_scope.md R12; spec/10_state.md R25 to R31, R37; spec/20_memory.md R65;
spec/60_exceptions.md R206, R210, R212). -/

namespace Sys2Proof.Machine

/-! ### Memories -/

/-- The memory of a 16-bit space. -/
def State.mem (s : State) : Space16 → Memory 16
  | .img => s.img
  | .c1 => s.c1
  | .p1 => s.p1
  | .c2 => s.c2
  | .p2 => s.p2
  | .h1 => s.h1
  | .logit => s.logit
  | .wC1 => s.wC1
  | .bC1 => s.bC1
  | .wC2 => s.wC2
  | .bC2 => s.bC2
  | .wF1 => s.wF1
  | .bF1 => s.bF1
  | .wF2 => s.wF2
  | .bF2 => s.bF2

/-- The state with the memory of one 16-bit space replaced. -/
def State.setMem (s : State) (sp : Space16) (m : Memory 16) : State :=
  match sp with
  | .img => { s with img := m }
  | .c1 => { s with c1 := m }
  | .p1 => { s with p1 := m }
  | .c2 => { s with c2 := m }
  | .p2 => { s with p2 := m }
  | .h1 => { s with h1 := m }
  | .logit => { s with logit := m }
  | .wC1 => { s with wC1 := m }
  | .bC1 => { s with bC1 := m }
  | .wC2 => { s with wC2 := m }
  | .bC2 => { s with bC2 := m }
  | .wF1 => { s with wF1 := m }
  | .bF1 => { s with bF1 := m }
  | .wF2 => { s with wF2 := m }
  | .bF2 => { s with bF2 := m }

/-- `MemRead(S, i)` of a 16-bit space (R12). -/
def State.read16 (s : State) (sp : Space16) (i : Nat) : Option S16 := Memory.read (s.mem sp) i

/-- `MemRead(PROB, i)` (R12). -/
def State.readProb (s : State) (i : Nat) : Option F32 := Memory.read s.prob i

/-- `MemWrite(S, i, v)` of a 16-bit space (R12). -/
def State.write16 (s : State) (sp : Space16) (i : Nat) (v : S16) : State :=
  s.setMem sp (Memory.write (s.mem sp) i v)

/-- `MemWrite(PROB, i, v)` (R12). -/
def State.writeProb (s : State) (i : Nat) (v : F32) : State :=
  { s with prob := Memory.write s.prob i v }

/-! ### Whole operands and whole outputs -/

/-- All values of a list, or none where one of them is missing (R65: an output that reads an element
without a value is unspecified). -/
def allSome {α : Type} : List (Option α) → Option (List α)
  | [] => some []
  | x :: xs =>
    match x with
    | none => none
    | some a =>
      match allSome xs with
      | none => none
      | some as => some (a :: as)

/-- The logit vector, elements 0 to 9 of LOGIT in order (R168). -/
def State.logits (s : State) : Option (List S16) :=
  allSome ((List.range numClasses).map (s.read16 .logit))

/-- The probability vector, elements 0 to 9 of PROB in order (R170). -/
def State.probs (s : State) : Option (List F32) :=
  allSome ((List.range numClasses).map s.readProb)

/-- A stage writes every element of its output space (R37): element `i` is `f i`, or the unspecified value
set aside for it where its computation read an element without a value (R65). One unspecified value is
set aside for each element, used or not, so that no two uses share one. -/
def State.fill16 (s : State) (sp : Space16) (f : Nat → Option S16) : State :=
  { s.setMem sp (Memory.tabulate sp.size fun i => (f i).getD (Config.draw16 (s.draws + i))) with
    draws := s.draws + sp.size }

/-- The same for PROB (R37, R65). -/
def State.fillProb (s : State) (f : Nat → Option F32) : State :=
  { s with
    prob := Memory.tabulate numClasses fun i => (f i).getD (Config.draw32 (s.draws + i))
    draws := s.draws + numClasses }

/-! ### Registers -/

/-- A control register as the host reads it while the core does not own it (R25 to R31). -/
def State.csr (s : State) : Csr → U32
  | .cmd => 0#32
  | .status => s.status.toWord
  | .cfg => BitVec.ofNat 32 s.cfg.F.val
  | .qIn => s.qIn
  | .qOut => s.qOut.setWidth 32
  | .dqIn => s.dqIn.setWidth 32
  | .dqOut => s.dqOut
  | .amax => s.amax.setWidth 32

/-- `csr[Q_OUT] <- zext_16(q)`; an unspecified value where `quantize` has no result (R102, R103). -/
def State.setQOut (s : State) (q : Option S16) : State :=
  { s with qOut := q.getD (Config.draw16 s.draws), draws := s.draws + 1 }

/-- `csr[DQ_OUT] <- v` (R30, R105). -/
def State.setDqOut (s : State) (v : F32) : State := { s with dqOut := v }

/-- `csr[AMAX] <- zext_4(index)`; an unspecified index from 0 to 9 where PROB is not wholly written
(R65, R170). -/
def State.setAmax (s : State) (index : Option Nat) : State :=
  { s with
    amax := BitVec.ofNat 4 (index.getD (Config.drawClass s.draws).val)
    draws := s.draws + 1 }

/-! ### The sequencer's fields -/

/-- The command `i` is accepted (R192). -/
def State.accept (s : State) (i : Instr) : State := { s with status := s.status.accept i }

/-- The running command ends (R191). -/
def State.complete (s : State) : State := { s with status := s.status.complete }

/-- The stage just performed ends: the command with it where it was the last (R191). -/
def State.endStage (s : State) (last : StageId) : State :=
  { s with status := s.status.endStage last }

/-! ### Errors and reset

The block has no exception with a handler: recording the error is the whole of it (R210). There is no
return from it (R212); reset alone clears it. -/

/-- `raise CmdError(code)` (R210). It never transfers control. -/
def State.raiseCmdError (s : State) (code : ErrCode) : State :=
  { s with status := s.status.raiseErr code }

/-- Code 1, ILLEGAL_CMD (R206, R207). -/
def illegalCmd : ErrCode := 1#4

/-- Code 2, CMD_WHILE_BUSY (R206, R208). -/
def cmdWhileBusy : ErrCode := 2#4

/-- Code 3, WRITE_WHILE_BUSY (R206, R209). -/
def writeWhileBusy : ErrCode := 3#4

/-- The reset input asserted and released: every register and memory as after reset, a running command
aborted (R230, R231). The build, what the host has read and is still to do, and the count of unspecified
values used are not the block's state and stay. -/
def State.resetBlock (s : State) : State :=
  { State.reset with cfg := s.cfg, draws := s.draws, events := s.events, rdata := s.rdata }

end Sys2Proof.Machine
end

