-- ==== Sys2Proof/Machine/HostPort.lean ====
section
/-! DEFINITION. The host's accesses (spec/10_state.md R25 to R31; spec/20_memory.md R50, R54, R55, R58, R60,
R65; spec/46_orchestrator.md R192; spec/60_exceptions.md R206 to R211; spec/70_reset_and_hazards.md R234). -/

namespace Sys2Proof.Machine

/-- The host gets a value. -/
def State.answer (s : State) (v : Element) : State := { s with rdata := v }

/-- The host gets `draw(s16)` (R60, R65). -/
def State.answerDraw16 (s : State) : State :=
  { s with rdata := .s16 (Config.draw16 s.draws), draws := s.draws + 1 }

/-- The host gets `draw` of a 32-bit element (R60, R65). -/
def State.answerDraw32 (s : State) : State :=
  { s with rdata := .w32 (Config.draw32 s.draws), draws := s.draws + 1 }

/-- The host reads an element of a 16-bit space: a draw while the core owns it or where it holds no value
(R58, R60, R65). -/
def State.hostRead16 (s : State) (sp : Space16) (i : Nat) : State :=
  if s.status.busy then s.answerDraw16
  else match s.read16 sp i with
    | some v => s.answer (.s16 v)
    | none => s.answerDraw16

/-- The host reads an element of PROB (R58, R60, R65). -/
def State.hostReadProb (s : State) (i : Nat) : State :=
  if s.status.busy then s.answerDraw32
  else match s.readProb i with
    | some v => s.answer (.w32 v)
    | none => s.answerDraw32

/-- The host reads a control register: `STATUS`, `CFG` and `CMD` always with their normal result, the others a
draw while the core owns them (R55, R60). DESIGN CHOICE (log 24): that draw is of all 32 bits, also of those that
`Q_OUT`, `DQ_IN` and `AMAX` do not have and that read 0 while idle (R25, U11). -/
def State.hostReadCsr (s : State) (r : Csr) : State :=
  if s.status.busy && r.owned then s.answerDraw32 else s.answer (.w32 (s.csr r))

/-- The host reads an element (R234). -/
def State.hostRead (s : State) : Location → State
  | .mem16 sp i => s.hostRead16 sp i
  | .prob i => s.hostReadProb i
  | .csr r => s.hostReadCsr r

/-- The host writes an element of a 16-bit space: stored while idle, dropped with error 3 while busy
(R58, R60, R209). -/
def State.hostWrite16 (s : State) (sp : Space16) (i : Nat) (v : S16) : State :=
  if s.status.busy then s.raiseCmdError writeWhileBusy else s.write16 sp i v

/-- The host writes an element of PROB (R58, R60, R209). -/
def State.hostWriteProb (s : State) (i : Nat) (v : F32) : State :=
  if s.status.busy then s.raiseCmdError writeWhileBusy else s.writeProb i v

/-- The host writes CMD: the busy test first, then legality (R192, R207, R208, R211). -/
def State.writeCmd (s : State) (w : U32) : State :=
  if s.status.busy then s.raiseCmdError cmdWhileBusy
  else match decode w with
    | .ok i => s.accept i
    | .error _ => s.raiseCmdError illegalCmd

/-- The host writes a control register: read-only registers ignore it without an error, `DQ_IN` keeps bits
15:0 alone (R25, R26, R29, R30, R60, R209). -/
def State.hostWriteCsr (s : State) (r : Csr) (w : U32) : State :=
  match r with
  | .cmd => s.writeCmd w
  | .qIn => if s.status.busy then s.raiseCmdError writeWhileBusy else { s with qIn := w }
  | .dqIn =>
    if s.status.busy then s.raiseCmdError writeWhileBusy else { s with dqIn := w.setWidth 16 }
  | .status => s
  | .cfg => s
  | .qOut => s
  | .dqOut => s
  | .amax => s

/-- The host writes one whole element; a value of another width is no host move (R50, R234). -/
def State.hostWrite (s : State) (a : Addr) (l : Location) (v : Element) :
    Host.Outcome State Fault Refusal :=
  match l, v with
  | .mem16 sp i, .s16 x => .next (s.hostWrite16 sp i x)
  | .prob i, .w32 x => .next (s.hostWriteProb i x)
  | .csr r, .w32 x => .next (s.hostWriteCsr r x)
  | .mem16 _ _, .w32 _ => .refused (.wrongWidth a)
  | .prob _, .s16 _ => .refused (.wrongWidth a)
  | .csr _, .s16 _ => .refused (.wrongWidth a)

/-- A value that was read, in the width of the element it is written to: the low 16 bits of a wider one, a
narrower one extended by zeros. DESIGN CHOICE (log 7): R87 leaves the conversion open. -/
def Element.toWidthOf (v : Element) (l : Location) : Element :=
  match l, v with
  | .mem16 _ _, .w32 w => .s16 (w.setWidth 16)
  | .mem16 _ _, .s16 x => .s16 x
  | .prob _, .s16 x => .w32 (x.setWidth 32)
  | .prob _, .w32 w => .w32 w
  | .csr _, .s16 x => .w32 (x.setWidth 32)
  | .csr _, .w32 w => .w32 w

/-- One poll of `WAIT`: the host reads STATUS; while DONE is 0 it polls again after a turn of the core
(R86, R199). -/
def State.hostWait (s : State) : State :=
  if s.status.done then s.hostReadCsr .status
  else { s.hostReadCsr .status with events := .core :: .host .wait :: s.events }

/-- One move of the host (R86, R234). An address that names no element is no host move: refused (R54). -/
def hostMove (m : HostMove) (s : State) : Host.Outcome State Fault Refusal :=
  match m with
  | .read a =>
    match resolve a with
    | some l => .next (s.hostRead l)
    | none => .refused (.noSuchElement a)
  | .write a v =>
    match resolve a with
    | some l => s.hostWrite a l v
    | none => .refused (.noSuchElement a)
  | .writeBack a =>
    match resolve a with
    | some l => s.hostWrite a l (Element.toWidthOf s.rdata l)
    | none => .refused (.noSuchElement a)
  | .wait => .next s.hostWait
  | .reset => .next s.resetBlock

end Sys2Proof.Machine
end

