-- ==== Sys2Proof/Machine/FixedPoint.lean ====
section
/-! DEFINITION. The fixed-point format and the shared arithmetic
(spec/40_fixed_point_format.md R100 to R116, spec/00_scope.md R10). -/

namespace Sys2Proof

/-! ### Wrapping and shifting (R10) -/

/-- `wrap16(n)` as the 16-bit pattern that is stored: the low 16 bits of `n` (R10, R112). Its raw value
is `(wrap16 n).toInt`. -/
def wrap16 (n : Int) : S16 := BitVec.ofInt 16 n

/-- `wrap32(n)`: the integer from -2^31 to 2^31 - 1 that is `n` modulo 2^32 (R10, R109). -/
def wrap32 (n : Int) : Int := Int.bmod n (2 ^ 32)

/-- `asr(a, n) = floor(a / 2^n)` (R10, R110); integer division by a positive number is the floor. -/
def asr (a : Int) (n : Nat) : Int := a / 2 ^ n

/-- `relu(a) = max(a, 0)` (R10, R111). -/
def relu (a : Int) : Int := max a 0

/-! ### The shared reduction (R107 to R113) -/

/-- The accumulator start, `wrap32(b * 2^F)` (R108). -/
def accStart (F : Nat) (b : S16) : Int := wrap32 (b.toInt * 2 ^ F)

/-- One term added to the accumulator: `wrap32(acc + x*w)`, the product exact (R107, R109). -/
def accStep (acc : Int) (p : S16 × S16) : Int := wrap32 (acc + p.1.toInt * p.2.toInt)

/-- The accumulator after all terms (R109). -/
def accumulate (F : Nat) (b : S16) (pairs : List (S16 × S16)) : Int :=
  pairs.foldl accStep (accStart F b)

/-- Rescale once, ReLU where its flag is set, then narrow (R110 to R112). -/
def finishReduce (F : Nat) (acc : Int) (reluOn : Bool) : S16 :=
  wrap16 (if reluOn then relu (asr acc F) else asr acc F)

/-- `reduce(F, b, pairs, relu_on)` (R113). -/
def reduce (F : Nat) (b : S16) (pairs : List (S16 × S16)) (reluOn : Bool) : S16 :=
  finishReduce F (accumulate F b pairs) reluOn

/-- The exact integer sum `S = b*2^F + sum x[j]*w[j]` that R114 and R115 speak of. -/
def exactSum (F : Nat) (b : S16) (pairs : List (S16 × S16)) : Int :=
  b.toInt * 2 ^ F + (pairs.map fun p => p.1.toInt * p.2.toInt).sum

/-! ### Quantize and dequantize (R102, R104) -/

/-- `round_tie` on an absolute value `n / d` (R102). -/
def roundTie : QuantTie → Nat → Nat → Nat
  | .away, n, d => roundHalfUp n d
  | .even, n, d => roundHalfEven n d

/-- The nearest integer to `real(v) * 2^F`, computed exactly: `real(v)` is `F32.scaled v * 2^-149` (R102). -/
def roundedScaled (tie : QuantTie) (F : Nat) (v : F32) : Int :=
  let n := roundTie tie (F32.scaledMag v * 2 ^ F) (2 ^ 149)
  if F32.sign v then -(n : Int) else n

/-- `quantize(v)`: none for a NaN or an infinity, for which the result is unspecified; otherwise the
rounded value, wrapped (R102). -/
def quantize (tie : QuantTie) (F : Nat) (v : F32) : Option S16 :=
  if F32.isFinite v then some (wrap16 (roundedScaled tie F v)) else none

/-- `dequantize(q)`: the binary32 whose real value is `q / 2^F` (R104). -/
def dequantize (F : Nat) (q : S16) : F32 := F32.ofFixed F q.toInt

end Sys2Proof
end

