-- ==== Sys2Proof/Machine/Conversion.lean ====
section
/-! DEFINITION. QUANT and DEQUANT (spec/40_fixed_point_format.md R103, R105). -/

namespace Sys2Proof.Machine

/-- The body of stage 9: `Q_OUT <- quantize(Q_IN)` (R103). -/
def quantBody (s : State) : State := s.setQOut (quantize s.cfg.quantTie s.cfg.F.val s.qIn)

/-- The body of stage 10: `DQ_OUT <- dequantize(DQ_IN)` (R105). -/
def dequantBody (s : State) : State := s.setDqOut (dequantize s.cfg.F.val s.dqIn)

/-- QUANT: its one stage, which ends the command (R103, R191). -/
def execQuant (s : State) : Host.Outcome State Fault Refusal := .next (quantBody s).complete

/-- DEQUANT: its one stage, which ends the command (R105, R191). -/
def execDequant (s : State) : Host.Outcome State Fault Refusal := .next (dequantBody s).complete

end Sys2Proof.Machine
end

