-- ==== Sys2Proof/Machine/Convolution.lean ====
section
/-! DEFINITION. The convolution operator, CONV1 and CONV2 (spec/41_convolution.md R120 to R125). -/

namespace Sys2Proof.Machine

/-- The pair of an input element and a weight, where both hold a value. -/
def operandPair (x w : Option S16) : Option (S16 × S16) :=
  match x with
  | none => none
  | some a =>
    match w with
    | none => none
    | some b => some (a, b)

/-- `reduce` over operands that may hold no value: none where the bias or an element of a pair holds none
(R65, R113). -/
def reduceOperands (F : Nat) (b : Option S16) (pairs : List (Option (S16 × S16))) (reluOn : Bool) :
    Option S16 :=
  match b with
  | none => none
  | some bias =>
    match allSome pairs with
    | none => none
    | some ps => some (reduce F bias ps reluOn)

/-- The operand pairs of one output element: `in[z][y+ky][x+kx]` with `ker[k][z][ky][kx]` (R120). -/
def convPairs (g : ConvShape) (inp ker : Nat → Option S16) (k y x : Nat) :
    List (Option (S16 × S16)) :=
  g.taps.map fun t =>
    operandPair (inp (idx3 g.H g.W t.1 (y + t.2.1) (x + t.2.2)))
      (ker (idx4 g.Z g.KH g.KW k t.1 t.2.1 t.2.2))

/-- `conv2d`: output element `[k][y][x]` (R120). ReLU is always applied (R111). -/
def conv2d (F : Nat) (g : ConvShape) (inp ker bias : Nat → Option S16) (k y x : Nat) : Option S16 :=
  reduceOperands F (bias k) (convPairs g inp ker k y x) true

/-- `conv2d` at a linear index of the output tensor (R51, R120). -/
def conv2dAt (F : Nat) (g : ConvShape) (inp ker bias : Nat → Option S16) (i : Nat) : Option S16 :=
  conv2d F g inp ker bias (i / (g.OH * g.OW)) (i / g.OW % g.OH) (i % g.OW)

/-- The body of stage 1: `C1 <- conv2d(F; 1,28,28; 20,5,5; IMG, W_C1, B_C1)` (R121). -/
def conv1Body (s : State) : State :=
  s.fill16 .c1 (conv2dAt s.cfg.F.val conv1Shape (s.read16 .img) (s.read16 .wC1) (s.read16 .bC1))

/-- The body of stage 3: `C2 <- conv2d(F; 20,12,12; 40,5,5; P1, W_C2, B_C2)` (R122). -/
def conv2Body (s : State) : State :=
  s.fill16 .c2 (conv2dAt s.cfg.F.val conv2Shape (s.read16 .p1) (s.read16 .wC2) (s.read16 .bC2))

/-- CONV1: its one stage, which ends the command (R121, R191). -/
def execConv1 (s : State) : Host.Outcome State Fault Refusal := .next (conv1Body s).complete

/-- CONV2: its one stage, which ends the command (R122, R191). -/
def execConv2 (s : State) : Host.Outcome State Fault Refusal := .next (conv2Body s).complete

end Sys2Proof.Machine
end

