-- ==== Sys2Proof/Machine/Dense.lean ====
section
/-! DEFINITION. The fully-connected operator, FC1 and FC2 (spec/43_fully_connected.md R145 to R149). -/

namespace Sys2Proof.Machine

/-- The operand pairs of output unit `k`: `x[i]` with `wt[k][i]` (R145). -/
def densePairs (g : DenseShape) (x wt : Nat → Option S16) (k : Nat) : List (Option (S16 × S16)) :=
  (List.range g.In).map fun i => operandPair (x i) (wt (idx2 g.In k i))

/-- `dense`: output unit `k` (R145). -/
def dense (F : Nat) (g : DenseShape) (x wt bias : Nat → Option S16) (reluOn : Bool) (k : Nat) :
    Option S16 :=
  reduceOperands F (bias k) (densePairs g x wt k) reluOn

/-- The body of stage 5: `H1 <- dense(F; 640,400; P2 as a vector, W_F1, B_F1, true)` (R146). P2 is read in
its storage order, `x[i]` = element `i` (R52, R148). -/
def fc1Body (s : State) : State :=
  s.fill16 .h1
    (dense s.cfg.F.val fc1Shape (s.read16 .p2) (s.read16 .wF1) (s.read16 .bF1) true)

/-- The body of stage 6: `LOGIT <- dense(F; 400,10; H1, W_F2, B_F2, false)` (R147). -/
def fc2Body (s : State) : State :=
  s.fill16 .logit
    (dense s.cfg.F.val fc2Shape (s.read16 .h1) (s.read16 .wF2) (s.read16 .bF2) false)

/-- FC1: its one stage, which ends the command (R146, R191). -/
def execFc1 (s : State) : Host.Outcome State Fault Refusal := .next (fc1Body s).complete

/-- FC2: its one stage, which ends the command (R147, R191). -/
def execFc2 (s : State) : Host.Outcome State Fault Refusal := .next (fc2Body s).complete

end Sys2Proof.Machine
end

