-- ==== Sys2Proof/Machine/Pool.lean ====
section
/-! DEFINITION. The max-pool operator, POOL1 and POOL2 (spec/42_maxpool.md R135 to R139). -/

namespace Sys2Proof.Machine

/-- The greater of two elements, compared as signed integers (R135). -/
def maxSigned (a b : S16) : S16 := if a.toInt < b.toInt then b else a

/-- The maximum of the four elements of a window, verbatim; none where one holds no value (R65, R135). -/
def max4 (a b c d : Option S16) : Option S16 :=
  match a, b, c, d with
  | some a, some b, some c, some d => some (maxSigned (maxSigned a b) (maxSigned c d))
  | _, _, _, _ => none

/-- `maxpool2`: output element `[c][y][x]` (R135). -/
def maxpool2 (g : PoolShape) (inp : Nat → Option S16) (c y x : Nat) : Option S16 :=
  max4 (inp (idx3 g.H g.W c (2 * y) (2 * x))) (inp (idx3 g.H g.W c (2 * y) (2 * x + 1)))
    (inp (idx3 g.H g.W c (2 * y + 1) (2 * x))) (inp (idx3 g.H g.W c (2 * y + 1) (2 * x + 1)))

/-- `maxpool2` at a linear index of the output tensor (R51, R135). -/
def maxpool2At (g : PoolShape) (inp : Nat → Option S16) (i : Nat) : Option S16 :=
  maxpool2 g inp (i / (g.H / 2 * (g.W / 2))) (i / (g.W / 2) % (g.H / 2)) (i % (g.W / 2))

/-- The body of stage 2: `P1 <- maxpool2(20,24,24; C1)` (R136). -/
def pool1Body (s : State) : State := s.fill16 .p1 (maxpool2At pool1Shape (s.read16 .c1))

/-- The body of stage 4: `P2 <- maxpool2(40,8,8; C2)` (R137). -/
def pool2Body (s : State) : State := s.fill16 .p2 (maxpool2At pool2Shape (s.read16 .c2))

/-- POOL1: its one stage, which ends the command (R136, R191). -/
def execPool1 (s : State) : Host.Outcome State Fault Refusal := .next (pool1Body s).complete

/-- POOL2: its one stage, which ends the command (R137, R191). -/
def execPool2 (s : State) : Host.Outcome State Fault Refusal := .next (pool2Body s).complete

end Sys2Proof.Machine
end

