-- ==== Sys2Proof/Machine/Softmax.lean ====
section
/-! DEFINITION. The softmax converter and argmax, SOFTMAX and ARGMAX (spec/44_softmax.md R160 to
R171). Every float operation is binary32 with one rounding (R160). -/

namespace Sys2Proof.Machine

/-- The largest of the logits as raw values: the maximum of step 2 taken on the integers, which R161
allows since dequantize is increasing. -/
def maxLogit : List S16 → Int
  | [] => 0
  | l :: ls => ls.foldl (fun m x => max m x.toInt) l.toInt

/-- `d[i]`: the binary32 with real value `(L[i] - Lmax) / 2^F`, exact (R162). -/
def shifted (F : Nat) (L : List S16) : List F32 :=
  L.map fun l => F32.ofFixed F (l.toInt - maxLogit L)

/-- Step 4: the exponentials added in index order, one rounding for each addition (R163). -/
def floatSum : List F32 → F32
  | [] => 0#32
  | e :: es => es.foldl F32.fadd e

/-- `rne32(1/10)` (R164). -/
def oneTenth : F32 := F32.rne32 false (2 ^ 149) 10

/-- Steps 4 to 6: the sum, the fallback below the epsilon, and otherwise one division for each element
(R163 to R165). -/
def normalize (eps : F32) (e : List F32) : List F32 :=
  if F32.flt (floatSum e) eps then e.map fun _ => oneTenth
  else e.map fun x => F32.fdiv x (floatSum e)

/-- `softmax(F; L)` with the exponential and the epsilon as arguments (R160 to R165). -/
def softmax (F : Nat) (exp32 : F32 → F32) (eps : F32) (L : List S16) : List F32 :=
  normalize eps ((shifted F L).map exp32)

/-- The scan of argmax from element `i` on: the candidate is replaced by a strictly greater element
alone (R169). -/
def argmaxFrom (best : Nat) (bestVal : F32) : Nat → List F32 → Nat
  | _, [] => best
  | i, p :: ps =>
    if F32.fgt p bestVal then argmaxFrom i p (i + 1) ps else argmaxFrom best bestVal (i + 1) ps

/-- `argmax(P)`: the lowest index of the maximum (R169). -/
def argmax : List F32 → Nat
  | [] => 0
  | p :: ps => argmaxFrom 0 p 1 ps

/-- The probabilities of a state's logits; none where a logit holds no value (R65, R168). -/
def State.softmaxResult (s : State) : Option (List F32) :=
  match s.logits with
  | some L => some (softmax s.cfg.F.val Config.expUnit.exp32 s.cfg.softmaxEps L)
  | none => none

/-- The body of stage 7: `PROB <- softmax(F; LOGIT)` (R168). Every probability reads every logit, so all
ten are unspecified where one logit holds no value (R65). -/
def softmaxBody (s : State) : State :=
  s.fillProb fun i =>
    match s.softmaxResult with
    | some P => some (P.getD i 0#32)
    | none => none

/-- The body of stage 8: `AMAX <- argmax(PROB)` (R170). -/
def argmaxBody (s : State) : State :=
  s.setAmax
    (match s.probs with
    | some P => some (argmax P)
    | none => none)

/-- SOFTMAX: its one stage, which ends the command (R168, R191). -/
def execSoftmax (s : State) : Host.Outcome State Fault Refusal := .next (softmaxBody s).complete

/-- ARGMAX: its one stage, which ends the command (R170, R191). -/
def execArgmax (s : State) : Host.Outcome State Fault Refusal := .next (argmaxBody s).complete

end Sys2Proof.Machine
end

