-- ==== Sys2Proof/Machine/Orchestrator.lean ====
section
/-! DEFINITION. The stages by their ids, NOP and FORWARD (spec/30_encoding.md R88;
spec/46_orchestrator.md R190 to R196). -/

namespace Sys2Proof.Machine

/-- The body of each stage id (R88); none for the ids 11 to 15, which do not exist. -/
def stageBody (n : StageId) (s : State) : Option State :=
  match n.toNat with
  | 0 => some s
  | 1 => some (conv1Body s)
  | 2 => some (pool1Body s)
  | 3 => some (conv2Body s)
  | 4 => some (pool2Body s)
  | 5 => some (fc1Body s)
  | 6 => some (fc2Body s)
  | 7 => some (softmaxBody s)
  | 8 => some (argmaxBody s)
  | 9 => some (quantBody s)
  | 10 => some (dequantBody s)
  | _ => none

/-- NOP: a stage without a body, which ends the command (R194). -/
def execNop (s : State) : Host.Outcome State Fault Refusal := .next s.complete

/-- The stages of FORWARD are 1 to 7 (R81, R88, R190). -/
def isForwardStage (n : StageId) : Bool := decide (1 ≤ n.toNat) && decide (n.toNat ≤ 7)

/-- FORWARD: one sequencer step of it, the stage that `STATUS.STAGE` holds; stage 7 ends the command
(R190, R191). A `STAGE` outside 1 to 7 is reached by no run and has no effect in the spec: fault. -/
def execForward (s : State) : Host.Outcome State Fault Refusal :=
  if isForwardStage s.status.stage then
    match stageBody s.status.stage s with
    | some t => .next (t.endStage 7#4)
    | none => .fault (.noSuchStage s.status.cur s.status.stage)
  else .fault (.noSuchStage s.status.cur s.status.stage)

end Sys2Proof.Machine
end

