-- ==== Sys2Proof/Machine/Dispatch.lean ====
section
/-! DEFINITION. The dispatch: one arm for each command. -/

namespace Sys2Proof.Machine

def exec (i : Instr) (s : State) : Host.Outcome State Fault Refusal :=
  match i with
  | .nop => Sys2Proof.Machine.execNop s
  | .conv1 => Sys2Proof.Machine.execConv1 s
  | .pool1 => Sys2Proof.Machine.execPool1 s
  | .conv2 => Sys2Proof.Machine.execConv2 s
  | .pool2 => Sys2Proof.Machine.execPool2 s
  | .fc1 => Sys2Proof.Machine.execFc1 s
  | .fc2 => Sys2Proof.Machine.execFc2 s
  | .softmax => Sys2Proof.Machine.execSoftmax s
  | .argmax => Sys2Proof.Machine.execArgmax s
  | .quant => Sys2Proof.Machine.execQuant s
  | .dequant => Sys2Proof.Machine.execDequant s
  | .forward => Sys2Proof.Machine.execForward s

end Sys2Proof.Machine
end

