-- ==== Sys2Proof/Machine/Sequencer.lean ====
section
/-! DEFINITION. The core's turn (spec/46_orchestrator.md R191, R192, R199) and how a command comes to run. -/

namespace Sys2Proof.Machine

/-- The word of the running command: `CUR` in bits 7:0, zeros above (R27, R80, R192). -/
def State.commandWord (s : State) : U32 := s.status.cur.setWidth 32

/-- The core's turn. It has a step exactly when BUSY = 1 (R191): one sequencer step of the command in `CUR`. While
BUSY = 0 nothing runs by itself (R230). A `CUR` that is no opcode is reached by no run: fault. -/
def coreTurn (s : State) : Host.Outcome State Fault Refusal :=
  if s.status.busy then
    match decode s.commandWord with
    | .ok i => exec i s
    | .error _ => .fault (.noSuchStage s.status.cur s.status.stage)
  else .next s

/-- The command is accepted as by a CMD write while idle (R192) and the core has the next turn: before what the
host is still to do, if anything. -/
def State.placeCommand (s : State) (i : Instr) : State :=
  { s.accept i with
    events := match s.events with
      | [] => []
      | e :: es => .core :: e :: es }

/-- A word that is no command is placed as the host's next move, a write of CMD (R207). -/
def State.placeIllegal (s : State) (w : Nat) : State :=
  { s with events := .host (.write (Csr.addr .cmd) (.w32 (BitVec.ofNat 32 w))) :: s.events }

end Sys2Proof.Machine
end

