-- ==== Sys2Proof/Machine/Step.lean ====
section
/-! DEFINITION. One step of the machine (spec/00_scope.md R8; spec/46_orchestrator.md R191, R199;
spec/70_reset_and_hazards.md R234). -/

namespace Sys2Proof.Machine

/-- One step of one of the two agents. `events` says which: its first entry, or the core once the host has
nothing left to do (R199: a busy core steps eventually). -/
def step (s : State) : Host.Outcome State Fault Refusal :=
  match s.events with
  | [] => coreTurn s
  | .core :: es => coreTurn { s with events := es }
  | .host m :: es => hostMove m { s with events := es }

/-- The state in which the very next step runs the command whose word is `w`: a command is fetched from no memory
(R64, R80), so its acceptance stands for the fetch (log 6). -/
def State.withFetchWord (s : State) (nbits w : Nat) : State :=
  match decodeTableWord nbits w with
  | some i => s.placeCommand i
  | none => s.placeIllegal w

end Sys2Proof.Machine
end

