-- ==== Sys2Proof/Machine/HostNotation.lean ====
section
/-! DEFINITION. The host notation: each line and each pseudo-instruction as the list of host moves it stands
for (spec/30_encoding.md R86, R87; spec/92_eei_decisions.md D27). It has no hardware meaning of its own. -/

namespace Sys2Proof.Machine

/-- `WR <space>[<index>], <value>` for a 16-bit space (R86). -/
def wr16 (sp : Space16) (i : Nat) (v : S16) : List Event := [.host (.write (sp.addr i) (.s16 v))]

/-- `WR PROB[<index>], f32:<pattern>` (R86). -/
def wrProb (i : Nat) (v : F32) : List Event := [.host (.write (probAddr i) (.w32 v))]

/-- `WR <REG>, <value>` (R86). -/
def wrReg (r : Csr) (v : U32) : List Event := [.host (.write r.addr (.w32 v))]

/-- One line for every index from `a` to `b` inclusive, in rising order: none where `b` is below `a` (R86). -/
def wrRange (line : Nat → List Event) (a b : Nat) : List Event :=
  (List.range' a (b + 1 - a)).flatMap line

/-- `WR <space>[<a>..<b>], <value>` for a 16-bit space (R86). -/
def wrRange16 (sp : Space16) (a b : Nat) (v : S16) : List Event := wrRange (fun i => wr16 sp i v) a b

/-- `WR PROB[<a>..<b>], f32:<pattern>` (R86). -/
def wrRangeProb (a b : Nat) (v : F32) : List Event := wrRange (fun i => wrProb i v) a b

/-- `RD <space>[<index>]` or `RD <REG>` (R86). -/
def rd (a : Addr) : List Event := [.host (.read a)]

/-- `CMD <MNEMONIC>`: the write of its word to CMD (R86). -/
def cmdLine (i : Instr) : List Event := wrReg .cmd (encode i)

/-- `WAIT` (R86). -/
def waitLine : List Event := [.host .wait]

/-- `RESET` (R86). -/
def resetLine : List Event := [.host .reset]

/-- `RUN <MNEMONIC>` (R87). -/
def runLine (i : Instr) : List Event := cmdLine i ++ waitLine

/-- `CLASSIFY` (R87). -/
def classifyLine : List Event := runLine .forward ++ runLine .argmax ++ rd (Csr.addr .amax)

/-- `QLOAD <space>[<index>], f32:<pattern>` (R87). R87 does not say whether `<space>` may be PROB. DESIGN CHOICE (log 25): it
is one of the fifteen 16-bit spaces, whose elements have the format that QUANT produces. -/
def qloadLine (sp : Space16) (i : Nat) (pattern : F32) : List Event :=
  wrReg .qIn pattern ++ runLine .quant ++ rd (Csr.addr .qOut) ++ [.host (.writeBack (sp.addr i))]

/-- `DQREAD <space>[<index>]` (R87). R87 does not say whether `<space>` may be PROB. DESIGN CHOICE (log 25): it is one of the
fifteen 16-bit spaces, whose elements have the format that DEQUANT takes. -/
def dqreadLine (sp : Space16) (i : Nat) : List Event :=
  rd (sp.addr i) ++ [.host (.writeBack (Csr.addr .dqIn))] ++ runLine .dequant ++ rd (Csr.addr .dqOut)

/-- `ZERO <space>` for a 16-bit space: the range line over all its indices (R87). -/
def zeroLine (sp : Space16) : List Event := wrRange16 sp 0 (sp.size - 1) 0#16

/-- `ZERO PROB` (R87). -/
def zeroProbLine : List Event := wrRangeProb 0 (numClasses - 1) 0#32

end Sys2Proof.Machine
end

