-- ==== Sys2Proof/Machine/Boundary.lean ====
section
/-! DEFINITION. The boundary formats: what the host must put into the memories
(spec/45_weight_quantizer_boundary.md R180 to R185; spec/70_reset_and_hazards.md R232). They are host duties, not
commands; the block cannot check them. -/

namespace Sys2Proof.Machine

/-- The image normaliser: `floor((p * 2^F) / 255)` for an 8-bit pixel (R183). -/
def normalizePixel (F : Nat) (p : BitVec 8) : S16 := BitVec.ofNat 16 (p.toNat * 2 ^ F / 255)

/-- The image writes, pixel (y, x) to index `y*28 + x` (R183). -/
def loadImage (F : Nat) (pixel : Nat → Nat → BitVec 8) : List Event :=
  (List.range conv1Shape.H).flatMap fun y =>
    (List.range conv1Shape.W).flatMap fun x =>
      wr16 .img (y * conv1Shape.W + x) (normalizePixel F (pixel y x))

/-- A convolution layer's weights: the index of `W[k][z][ky][kx]` with the float weight `Wf[ky][kx][z][k]` that
belongs there (R180). -/
def convEntries (g : ConvShape) (Wf : Nat → Nat → Nat → Nat → F32) : List (Nat × F32) :=
  (List.range g.K).flatMap fun k =>
    g.taps.map fun t => (idx4 g.Z g.KH g.KW k t.1 t.2.1 t.2.2, Wf t.2.1 t.2.2 t.1 k)

/-- FC1's weights: column `c*16 + h*4 + w` of row `k` with the float weight of input index
`(h*4 + w)*40 + c` (R181). -/
def fc1Entries (Wf : Nat → Nat → F32) : List (Nat × F32) :=
  (List.range fc1Shape.Out).flatMap fun k =>
    (List.range 40).flatMap fun c =>
      (List.range 4).flatMap fun h =>
        (List.range 4).map fun w =>
          (idx2 fc1Shape.In k (c * 16 + h * 4 + w), Wf ((h * 4 + w) * 40 + c) k)

/-- FC2's weights: `W_F2[k][i]` with `Wf2[i][k]` (R181). -/
def fc2Entries (Wf : Nat → Nat → F32) : List (Nat × F32) :=
  (List.range fc2Shape.Out).flatMap fun k =>
    (List.range fc2Shape.In).map fun i => (idx2 fc2Shape.In k i, Wf i k)

/-- A bias vector of `n` elements: `B[k]` with `Bf[k]` (R182). -/
def biasEntries (n : Nat) (Bf : Nat → F32) : List (Nat × F32) :=
  (List.range n).map fun k => (k, Bf k)

/-- The host loads the entries of one space with the block's own QUANT command (R185). -/
def loadByQuant (sp : Space16) (entries : List (Nat × F32)) : List Event :=
  entries.flatMap fun e => qloadLine sp e.1 e.2

/-- The value that the offline conversion gives a float weight: `quantize` of it, and for a NaN or an infinity, for which the
result is unspecified, the free value `free` (R102, R185). -/
def offlineValue (tie : QuantTie) (F : Nat) (free : S16) (v : F32) : S16 :=
  (quantize tie F v).getD free

/-- The host loads the entries of one space converted offline: every entry is written, with the value the QUANT command would
store (R185). The unspecified values are an argument, one for each element, so what is said of every argument is said of
every value (R12). -/
def loadOffline (tie : QuantTie) (F : Nat) (free : Space16 → Nat → S16) (sp : Space16)
    (entries : List (Nat × F32)) : List Event :=
  entries.flatMap fun e => wr16 sp e.1 (offlineValue tie F (free sp e.1) e.2)

/-- The float weights of the four layers, in the training framework's own index order (R180 to R182). -/
structure FloatWeights where
  conv1 : Nat → Nat → Nat → Nat → F32
  bias1 : Nat → F32
  conv2 : Nat → Nat → Nat → Nat → F32
  bias2 : Nat → F32
  dense1 : Nat → Nat → F32
  biasD1 : Nat → F32
  dense2 : Nat → Nat → F32
  biasD2 : Nat → F32

/-- All eight weight memories, by either way of loading one space: `loadByQuant`, or `loadOffline` with its parameters
(R180 to R182, R185, R232). -/
def loadWeights (load : Space16 → List (Nat × F32) → List Event) (w : FloatWeights) : List Event :=
  load .wC1 (convEntries conv1Shape w.conv1)
    ++ load .bC1 (biasEntries conv1Shape.K w.bias1)
    ++ load .wC2 (convEntries conv2Shape w.conv2)
    ++ load .bC2 (biasEntries conv2Shape.K w.bias2)
    ++ load .wF1 (fc1Entries w.dense1)
    ++ load .bF1 (biasEntries fc1Shape.Out w.biasD1)
    ++ load .wF2 (fc2Entries w.dense2)
    ++ load .bF2 (biasEntries fc2Shape.Out w.biasD2)

/-- One image and its class: IMG is written before each FORWARD command (R184, R185). -/
def classifyImage (F : Nat) (pixel : Nat → Nat → BitVec 8) : List Event :=
  loadImage F pixel ++ classifyLine

/-- The boot order of R232: reset, check CFG, the weights once, then each image and its commands (R185). -/
def bootAndClassify (load : Space16 → List (Nat × F32) → List Event) (F : Nat) (w : FloatWeights)
    (images : List (Nat → Nat → BitVec 8)) : List Event :=
  resetLine ++ rd (Csr.addr .cfg) ++ loadWeights load w ++ images.flatMap (classifyImage F)

end Sys2Proof.Machine
end

