-- ==== Sys2Proof/Machine/Platform.lean ====
section
/-! DEFINITION. The view of a platform wrapper that maps the spaces into one flat byte-addressed space
(spec/20_memory.md R53, R56; spec/92_eei_decisions.md D18, D28). No rule of the core depends on it. -/

namespace Sys2Proof

/-- The space id of a location (R21, R22, R25). -/
def Location.spaceId : Location → Nat
  | .mem16 sp _ => sp.id
  | .prob _ => probId
  | .csr _ => csrId

/-- The byte offset within the space: `2*i` for a 16-bit element, `4*i` for PROB and CSR (R56). -/
def Location.byteOffset : Location → Nat
  | .mem16 _ i => 2 * i
  | .prob i => 4 * i
  | .csr r => 4 * r.index

/-- The bytes of the element at a location: two for a 16-bit element, four for PROB and CSR (R50, R56). -/
def Location.byteWidth : Location → Nat
  | .mem16 _ _ => 2
  | .prob _ => 4
  | .csr _ => 4

/-- The byte address, given the base address of each space (R56). -/
def Location.byteAddrFrom (m : PlatformMap) (l : Location) : Nat := m.base l.spaceId + l.byteOffset

/-- The byte address under the platform's own bases, which are open (R7, R56). -/
def Location.byteAddr (l : Location) : Nat := l.byteAddrFrom Config.platform

/-- An element on a byte-wide bus: little-endian, the byte at the lower address first (R53). -/
def Element.bytes : Element → List (BitVec 8)
  | .s16 v => [v.extractLsb' 0 8, v.extractLsb' 8 8]
  | .w32 v => [v.extractLsb' 0 8, v.extractLsb' 8 8, v.extractLsb' 16 8, v.extractLsb' 24 8]

/-- The element that a wrapper assembles from its bytes, lower address first (R53); none for any other number of
bytes, since no access is narrower or wider than one element (R50). -/
def Element.ofBytes : List (BitVec 8) → Option Element
  | [b0, b1] => some (.s16 (b1 ++ b0))
  | [b0, b1, b2, b3] => some (.w32 (b3 ++ b2 ++ b1 ++ b0))
  | _ => none

end Sys2Proof
end

