-- ==== Sys2Proof/WellFormed.lean ====
section
/-! DEFINITION. The checks on what is given to the machine: command words (spec/30_encoding.md R83),
addresses and widths of host moves (spec/20_memory.md R50, R54), shapes (spec/42_maxpool.md R138,
spec/41_convolution.md R123) and build parameters (spec/00_scope.md R7). -/

namespace Sys2Proof

/-- A word is legal when bits 31:8 are all 0 and bits 7:0 are none of the reserved opcodes `0x0B` to
`0x0E` and `0x10` to `0xFF` (R83). -/
def legalWord (w : U32) : Bool :=
  decide (w.toNat < 256) && !(decide (0x0B ≤ w.toNat % 256) && decide (w.toNat % 256 ≤ 0x0E))
    && !(decide (0x10 ≤ w.toNat % 256) && decide (w.toNat % 256 ≤ 0xFF))

/-- A command has no operand that could be ill-formed (R82): all that is asked is that its word is a
legal one. -/
def Instr.wf (i : Instr) : Bool := legalWord (encode i)

/-- The element count of each space id, as the tables of R21, R22 and R25 print it. -/
def elementCount : Nat → Option Nat
  | 0 => some 784
  | 1 => some 11520
  | 2 => some 2880
  | 3 => some 2560
  | 4 => some 640
  | 5 => some 400
  | 6 => some 10
  | 7 => some 10
  | 8 => some 500
  | 9 => some 20
  | 10 => some 20000
  | 11 => some 40
  | 12 => some 256000
  | 13 => some 400
  | 14 => some 4000
  | 15 => some 10
  | 16 => some 8
  | _ => none

/-- The space exists and the index is below its element count (R54). -/
def Addr.wf (a : Addr) : Bool :=
  match elementCount a.space with
  | some n => decide (a.index < n)
  | none => false

/-- The width of a value is that of the space: 32 bits for PROB and CSR, else 16 (R50). -/
def Element.fits (v : Element) (a : Addr) : Bool :=
  match v with
  | .s16 _ => decide (a.space ≠ 7) && decide (a.space ≠ 16)
  | .w32 _ => decide (a.space = 7) || decide (a.space = 16)

/-- A host move exists: its address is legal and it moves one whole element (R50, R54). -/
def HostMove.wf : HostMove → Bool
  | .read a => a.wf
  | .write a v => a.wf && v.fits a
  | .writeBack a => a.wf
  | .wait => true
  | .reset => true

/-- An entry of the interleaving is well formed when its host move exists. -/
def Event.wf : Event → Bool
  | .host m => m.wf
  | .core => true

/-- A valid convolution has an output: no kernel is larger than the input (R123). -/
def ConvShape.wf (g : ConvShape) : Bool :=
  decide (1 ≤ g.KH) && decide (g.KH ≤ g.H) && decide (1 ≤ g.KW) && decide (g.KW ≤ g.W)

/-- The max-pool is defined for even extents alone (R138). -/
def PoolShape.wf (g : PoolShape) : Bool := decide (g.H % 2 = 0) && decide (g.W % 2 = 0)

/-- The epsilon of softmax lies in (0, 1] (R7). `F` is at most 15 by its type (R4). -/
def BuildConfig.wf (c : BuildConfig) : Bool :=
  decide (0#32 < c.softmaxEps) && decide (c.softmaxEps ≤ 0x3F800000#32)

end Sys2Proof
end

