-- ==== Sys2Proof/Safety.lean ====
section
/-! DEFINITION. What a safe run is, and the invariant of the machine, in the terms the statements use. -/

namespace Sys2Proof.Machine

/-- What the spec says of every state: R27 (BUSY and DONE never both 1, STAGE 0 while idle, ERRCODE 0 while ERR is
0), R33 and R191 (a busy core is at a stage of the command in CUR), R206 (the codes), R31 (AMAX), and the canonical
form of every memory. -/
structure State.Inv (s : State) : Prop where
  memWf : ∀ sp : Space16, Memory.wf sp.size (s.mem sp) = true
  probWf : Memory.wf numClasses s.prob = true
  notBusyAndDone : ¬(s.status.busy = true ∧ s.status.done = true)
  idleStage : s.status.busy = false → s.status.stage = 0#4
  noErrCode : s.status.err = false → s.status.errCode = 0#4
  errCodes : s.status.err = true →
    s.status.errCode = illegalCmd ∨ s.status.errCode = cmdWhileBusy ∨ s.status.errCode = writeWhileBusy
  curLegal : ∃ i : Instr, s.status.cur = i.opcode
  busyStage : ∀ i : Instr, s.status.busy = true → s.status.cur = i.opcode →
    i.firstStage ≤ s.status.stage ∧ s.status.stage ≤ i.lastStage
  amaxRange : s.amax.toNat ≤ 9

/-- `n` steps of the machine, stopping at the first fault or refusal. -/
def runSteps (n : Nat) (s : State) : Host.Outcome State Fault Refusal := Host.Core.run Sys2Proof.core n s

/-- A step of this state does not end in a fault. -/
def NoFault (s : State) : Prop := ∀ r : Fault, step s ≠ .fault r

/-- The host has performed its last action and BUSY = 0: a host program has ended (R199). No move of the host is left in
`events`; turns of the core may be, and do nothing. -/
def State.ended (s : State) : Prop := (∀ e ∈ s.events, e = .core) ∧ s.status.busy = false

/-- Every move the host is still to make exists (R54). -/
def State.hostLegal (s : State) : Prop := ∀ e ∈ s.events, e.wf = true

/-- Every element of a 16-bit space holds a value. -/
def State.written (s : State) (sp : Space16) : Prop :=
  ∀ i : Nat, i < sp.size → ∃ v : S16, s.read16 sp i = some v

/-- What a FORWARD command takes as its premise: IMG and all eight weight memories wholly written (R65, R232). -/
def State.loaded (s : State) : Prop :=
  s.written .img ∧ ∀ sp : Space16, sp.isWeight = true → s.written sp

/-- `r` is `rne32` of the real number `(num / den) * 2^-149`, for a positive `den`: a finite pattern at least as near to it as
any other, and the one with an even fraction where two are equally near (R11). Distances are scaled by `den`, so that they are
integers. Of the sign of a zero it says nothing. -/
def IsNearestF32 (r : F32) (num : Int) (den : Nat) : Prop :=
  r.isFinite = true ∧
    (∀ q : F32, q.isFinite = true → (r.scaled * den - num).natAbs ≤ (q.scaled * den - num).natAbs) ∧
    ∀ q : F32, q.isFinite = true → q.scaled ≠ r.scaled →
      (q.scaled * den - num).natAbs = (r.scaled * den - num).natAbs → r.toNat % 2 = 0

/-- The running command has ended: BUSY 0, DONE 1, STAGE 0, and CUR, ERR and ERRCODE as before (R191). -/
def State.completedFrom (s t : State) : Prop :=
  t.status = { s.status with busy := false, done := true, stage := 0#4 }

/-- The registers that hold data, and the build, are the same in both states: what a stage that writes a memory
leaves alone (R37). -/
def State.sameRegs (s t : State) : Prop :=
  t.cfg = s.cfg ∧ t.qIn = s.qIn ∧ t.qOut = s.qOut ∧ t.dqIn = s.dqIn ∧ t.dqOut = s.dqOut ∧
    t.amax = s.amax

/-- Every element of every 16-bit space but `sp` reads the same in both states. -/
def State.sameMemBut (s t : State) (sp : Space16) : Prop :=
  ∀ (sp' : Space16) (i : Nat), sp' ≠ sp → t.read16 sp' i = s.read16 sp' i

/-- Every element of every 16-bit space reads the same in both states. -/
def State.sameMem (s t : State) : Prop :=
  ∀ (sp : Space16) (i : Nat), t.read16 sp i = s.read16 sp i

/-- Every element of PROB reads the same in both states. -/
def State.sameProb (s t : State) : Prop := ∀ i : Nat, t.readProb i = s.readProb i

/-- What the host is still to do and what it has read are the same in both states. -/
def State.sameHost (s t : State) : Prop := t.events = s.events ∧ t.rdata = s.rdata

end Sys2Proof.Machine
end

