-- ==== Sys2Proof/Certificates/Slice0/Obligations.lean ====
section
/-! DEFINITION. The statements for the provers. -/

open Sys2Proof Sys2Proof.Machine

/-! ### The command word -/

/-- R81: the decoder matches the whole word, so it answers a command for that command's own word and for
no other. Both directions, over all 2^32 words. -/
def Obligations.DecodeMatchesExactlyTheEncodings : Prop :=
  (∀ i : Instr, decode (encode i) = .ok i) ∧
    ∀ (w : U32) (i : Instr), decode w = .ok i → w = encode i

/-- R83 and R207: the twelve command words are distinct, and a word is none of them exactly when bits 31:8 are not all 0 or
bits 7:0 are a reserved opcode; such a word written to CMD while idle starts nothing and records error 1. -/
def Obligations.ReservedWordsAreIllegal : Prop :=
  (∀ i j : Instr, encode i = encode j → i = j) ∧
  (∀ w : U32,
    (w.toNat / 256 ≠ 0 ∨ (0x0B ≤ w.toNat % 256 ∧ w.toNat % 256 ≤ 0x0E) ∨ 0x10 ≤ w.toNat % 256) ↔
      ¬∃ i : Instr, w = encode i) ∧
  ∀ (s : State) (es : List Event) (w : U32),
    (¬∃ i : Instr, w = encode i) → s.status.busy = false →
    s.events = .host (.write (Csr.addr .cmd) (.w32 w)) :: es →
    step s = .next { s with
      events := es
      status := { s.status with
        err := true, errCode := if s.status.err then s.status.errCode else 1#4 } }

/-- R81, R105, R121 and the other command rules: a few words written out bit by bit decode to the command they
stand for, and words beside them do not decode. A sanity statement. -/
def Obligations.SampleWordsDecodeRight : Prop :=
  decode 0b00000000000000000000000000000000#32 = .ok .nop ∧
  decode 0b00000000000000000000000000000001#32 = .ok .conv1 ∧
  decode 0b00000000000000000000000000000100#32 = .ok .pool2 ∧
  decode 0b00000000000000000000000000000101#32 = .ok .fc1 ∧
  decode 0b00000000000000000000000000001000#32 = .ok .argmax ∧
  decode 0b00000000000000000000000000001010#32 = .ok .dequant ∧
  decode 0b00000000000000000000000000001111#32 = .ok .forward ∧
  decode 0x0000000B#32 = .error .reservedOpcode ∧
  decode 0x000000FF#32 = .error .reservedOpcode ∧
  decode 0x00000100#32 = .error .upperBitsSet ∧
  decode 0x8000000F#32 = .error .upperBitsSet

/-! ### The step and the sequencer -/

/-- R191, R192, R199: while BUSY = 1 and the command in CUR is `i`, a turn of the core is `exec i` of the state, once the
entry that gave it the turn is taken off; while idle the core's turn changes nothing else. A host program that has ended
stays so: a step takes off at most one turn of the core and changes nothing else. A command placed by `withFetchWord` is the
very next one to run. The list of events and the placing are the model's choices (logs 2 and 6). -/
def Obligations.StepRunsTheCommandInCur : Prop :=
  (∀ (s : State) (i : Instr), s.status.busy = true → decode s.commandWord = .ok i → s.events = [] →
    step s = exec i s) ∧
  (∀ (s : State) (i : Instr) (es : List Event), s.status.busy = true → decode s.commandWord = .ok i →
    s.events = .core :: es → step s = exec i { s with events := es }) ∧
  (∀ s : State, s.status.busy = false → s.events = [] → step s = .next s) ∧
  (∀ (s : State) (es : List Event), s.status.busy = false → s.events = .core :: es →
    step s = .next { s with events := es }) ∧
  (∀ s : State, s.ended → ∃ t : State, step s = .next t ∧ t.ended ∧ t = { s with events := s.events.tail }) ∧
  ∀ (s : State) (i : Instr),
    step (s.withFetchWord 32 (encode i).toNat) = exec i (s.accept i)

/-- R192: an accepted command sets CUR, STAGE, DONE and BUSY and nothing else. -/
def Obligations.AcceptedCommandSetsStatus : Prop :=
  ∀ (s : State) (es : List Event) (w : U32) (i : Instr),
    s.status.busy = false → w = encode i →
    s.events = .host (.write (Csr.addr .cmd) (.w32 w)) :: es →
    step s = .next { s with
      events := es
      status :=
        { busy := true, done := false, err := s.status.err, errCode := s.status.errCode
          stage := if w = 0x0000000F#32 then 1#4 else w.extractLsb' 0 4
          cur := w.extractLsb' 0 8 } }

/-- R191 and R195: every command but FORWARD is one step of the core: it answers a next state in which BUSY is 0, DONE 1
and STAGE 0, and CUR, ERR and ERRCODE are as before. For every state: no operand can make one stop. -/
def Obligations.SingleStageCommandsComplete : Prop :=
  ∀ (s : State) (i : Instr), i ≠ .forward →
    ∃ t b : State, stageBody i.firstStage s = some b ∧ exec i s = .next t ∧
      t = { b with status := t.status } ∧ s.completedFrom t

/-- R190 and R191: FORWARD performs the stage that STAGE holds; stages 1 to 6 are followed by the next one, and
stage 7 ends the command. R37 and R190: the stage of id `n` writes the space of id `n` alone; every other space, every data
register and the host's own fields stay as they are. -/
def Obligations.ForwardPerformsItsStage : Prop :=
  (∀ s t : State, exec .forward s = .next t →
    (∀ (sp : Space16) (i : Nat), sp.id ≠ s.status.stage.toNat → t.read16 sp i = s.read16 sp i) ∧
    (s.status.stage ≠ 7#4 → s.sameProb t) ∧ s.sameRegs t ∧ s.sameHost t) ∧
  ∀ s : State,
    (s.status.stage = 1#4 →
      exec .forward s = .next { conv1Body s with status := { s.status with stage := 2#4 } }) ∧
    (s.status.stage = 2#4 →
      exec .forward s = .next { pool1Body s with status := { s.status with stage := 3#4 } }) ∧
    (s.status.stage = 3#4 →
      exec .forward s = .next { conv2Body s with status := { s.status with stage := 4#4 } }) ∧
    (s.status.stage = 4#4 →
      exec .forward s = .next { pool2Body s with status := { s.status with stage := 5#4 } }) ∧
    (s.status.stage = 5#4 →
      exec .forward s = .next { fc1Body s with status := { s.status with stage := 6#4 } }) ∧
    (s.status.stage = 6#4 →
      exec .forward s = .next { fc2Body s with status := { s.status with stage := 7#4 } }) ∧
    (s.status.stage = 7#4 →
      exec .forward s = .next { softmaxBody s with
        status := { s.status with busy := false, done := true, stage := 0#4 } })

/-- R35 and R206: BUSY rises by a host write of a command word to CMD alone (the word itself, or the value last read written
back, its width made to fit by the model's choice of log 7), DONE by the last step of a running command alone, ERR by a host write alone, of CMD or made while busy. -/
def Obligations.FlagsRiseOnlyAsStated : Prop :=
  ∀ s t : State, step s = .next t →
    (s.status.busy = false → t.status.busy = true →
      ∃ (i : Instr) (es : List Event), t.status.cur = i.opcode ∧
        (s.events = .host (.write (Csr.addr .cmd) (.w32 (encode i))) :: es ∨
          (s.events = .host (.writeBack (Csr.addr .cmd)) :: es ∧
            Element.toWidthOf s.rdata (.csr .cmd) = .w32 (encode i)))) ∧
    (s.status.done = false → t.status.done = true →
      s.status.busy = true ∧ t.status.busy = false ∧
        (s.events = [] ∨ ∃ es : List Event, s.events = .core :: es)) ∧
    (s.status.err = false → t.status.err = true →
      ∃ (a : Addr) (es : List Event), (a = Csr.addr .cmd ∨ s.status.busy = true) ∧
        ((∃ v : Element, s.events = .host (.write a v) :: es) ∨ s.events = .host (.writeBack a) :: es))

/-! ### Errors -/

/-- R208: any word written to CMD while busy records error 2 and changes nothing else, be it legal or not. -/
def Obligations.CommandWhileBusyRecordsCodeTwo : Prop :=
  ∀ (s : State) (es : List Event) (w : U32),
    s.status.busy = true →
    s.events = .host (.write (Csr.addr .cmd) (.w32 w)) :: es →
    step s = .next { s with
      events := es
      status := { s.status with
        err := true, errCode := if s.status.err then s.status.errCode else 2#4 } }

/-- R209: a write of a memory element, Q_IN or DQ_IN while busy records error 3 and changes nothing else; a read while
busy raises nothing. -/
def Obligations.WriteWhileBusyRecordsCodeThree : Prop :=
  (∀ (s : State) (es : List Event) (a : Addr) (l : Location) (v : Element),
    s.status.busy = true → resolve a = some l → v.fits a = true →
    (∀ r : Csr, l = .csr r → r = .qIn ∨ r = .dqIn) →
    s.events = .host (.write a v) :: es →
    step s = .next { s with
      events := es
      status := { s.status with
        err := true, errCode := if s.status.err then s.status.errCode else 3#4 } }) ∧
  ∀ (s t : State) (es : List Event) (a : Addr),
    s.status.busy = true → s.events = .host (.read a) :: es → step s = .next t →
    t.status = s.status

/-- R205, R206, R210 and R212: recording an error sets ERR, keeps the first code and does nothing else; no stage raises an
error or changes CUR; and no step but the reset move clears ERR or changes the recorded code. -/
def Obligations.ErrorsAreRecordedOnceAndSticky : Prop :=
  (∀ (s : State) (code : ErrCode),
    s.raiseCmdError code = { s with
      status := { s.status with
        err := true, errCode := if s.status.err then s.status.errCode else code } }) ∧
  (∀ (i : Instr) (s t : State), exec i s = .next t →
    t.status.err = s.status.err ∧ t.status.errCode = s.status.errCode ∧
      t.status.cur = s.status.cur) ∧
  ∀ s t : State, step s = .next t → s.status.err = true →
    (∀ es : List Event, s.events ≠ .host .reset :: es) →
    t.status.err = true ∧ t.status.errCode = s.status.errCode

/-! ### The host's accesses -/

/-- R27: where each field of STATUS stands, and that every other bit reads 0. -/
def Obligations.StatusWordLayout : Prop :=
  ∀ t : Status,
    t.toWord.extractLsb' 0 1 = BitVec.ofBool t.busy ∧
    t.toWord.extractLsb' 1 1 = BitVec.ofBool t.done ∧
    t.toWord.extractLsb' 2 1 = BitVec.ofBool t.err ∧
    t.toWord.extractLsb' 3 1 = 0#1 ∧
    t.toWord.extractLsb' 4 4 = t.stage ∧
    t.toWord.extractLsb' 8 4 = t.errCode ∧
    t.toWord.extractLsb' 12 4 = 0#4 ∧
    t.toWord.extractLsb' 16 8 = t.cur ∧
    t.toWord.extractLsb' 24 8 = 0#8

/-- R25 to R31: the space id and index of each control register; what the host reads from each while idle; while idle Q_IN takes all 32 bits of a write and
DQ_IN the low 16; a write of a read-only register is ignored at any time, without an error. Nothing else changes. -/
def Obligations.RegisterReadsAndWrites : Prop :=
  (∀ r : Csr, resolve r.addr = some (.csr r) ∧
    r.addr = { space := 16
               index := match r with
                 | .cmd => 0
                 | .status => 1
                 | .cfg => 2
                 | .qIn => 3
                 | .qOut => 4
                 | .dqIn => 5
                 | .dqOut => 6
                 | .amax => 7 }) ∧
  (∀ (s : State) (es : List Event) (r : Csr),
    s.status.busy = false → s.events = .host (.read r.addr) :: es →
    step s = .next { s with
      events := es
      rdata := .w32 (match r with
        | .cmd => 0#32
        | .status => s.status.toWord
        | .cfg => BitVec.ofNat 32 s.cfg.F.val
        | .qIn => s.qIn
        | .qOut => 0#16 ++ s.qOut
        | .dqIn => 0#16 ++ s.dqIn
        | .dqOut => s.dqOut
        | .amax => 0#28 ++ s.amax) }) ∧
  ∀ (s : State) (es : List Event) (w : U32),
    (s.status.busy = false → s.events = .host (.write (Csr.addr .qIn) (.w32 w)) :: es →
      step s = .next { s with events := es, qIn := w }) ∧
    (s.status.busy = false → s.events = .host (.write (Csr.addr .dqIn) (.w32 w)) :: es →
      step s = .next { s with events := es, dqIn := w.extractLsb' 0 16 }) ∧
    ∀ r : Csr, r = .status ∨ r = .cfg ∨ r = .qOut ∨ r = .dqOut ∨ r = .amax →
      s.events = .host (.write r.addr (.w32 w)) :: es → step s = .next { s with events := es }

/-- R60: while busy the host reads STATUS, CFG and CMD with their normal results and an unspecified value from everything
else; nothing changes but what it has read and the count of unspecified values used (the model's own fields, logs 4
and 5). That all 32 bits of a control register the core owns are unspecified, also those that read 0 while idle, is the
model's choice (log 24). -/
def Obligations.ReadsWhileBusy : Prop :=
  ∀ (s : State) (es : List Event) (a : Addr) (l : Location),
    s.status.busy = true → resolve a = some l → s.events = .host (.read a) :: es →
    ∃ t : State, step s = .next t ∧ t = { s with events := es, rdata := t.rdata, draws := t.draws } ∧
      t.rdata = match l with
        | .mem16 _ _ => .s16 (Config.draw16 s.draws)
        | .prob _ => .w32 (Config.draw32 s.draws)
        | .csr .status => .w32 s.status.toWord
        | .csr .cfg => .w32 (BitVec.ofNat 32 s.cfg.F.val)
        | .csr .cmd => .w32 0#32
        | .csr .qIn => .w32 (Config.draw32 s.draws)
        | .csr .qOut => .w32 (Config.draw32 s.draws)
        | .csr .dqIn => .w32 (Config.draw32 s.draws)
        | .csr .dqOut => .w32 (Config.draw32 s.draws)
        | .csr .amax => .w32 (Config.draw32 s.draws)

/-- R58 and R65: while idle a written element of a 16-bit space, or of PROB, reads back, and every other element of every
space reads as before, as do the registers and STATUS; a host read of an element that holds no value gives an unspecified
value (which one is the model's choice, log 5), and the element still holds none. -/
def Obligations.IdleMemoryAccess : Prop :=
  (∀ (s : State) (es : List Event) (sp : Space16) (i : Nat) (v : S16),
    s.status.busy = false → i < sp.size →
    ∃ t : State, runSteps 2 { s with events := wr16 sp i v ++ rd (sp.addr i) ++ es } = .next t ∧
      t.rdata = .s16 v ∧ t.events = es ∧ t.read16 sp i = some v ∧
      (∀ (sp' : Space16) (j : Nat), ¬(sp' = sp ∧ j = i) → t.read16 sp' j = s.read16 sp' j) ∧
      s.sameProb t ∧ s.sameRegs t ∧ t.status = s.status) ∧
  (∀ (s : State) (es : List Event) (i : Nat) (v : F32),
    s.status.busy = false → i < 10 →
    ∃ t : State, runSteps 2 { s with events := wrProb i v ++ rd (probAddr i) ++ es } = .next t ∧
      t.rdata = .w32 v ∧ t.events = es ∧ t.readProb i = some v ∧
      (∀ j : Nat, j ≠ i → t.readProb j = s.readProb j) ∧
      s.sameMem t ∧ s.sameRegs t ∧ t.status = s.status) ∧
  (∀ (s : State) (es : List Event) (sp : Space16) (i : Nat),
    s.status.busy = false → i < sp.size → s.read16 sp i = none →
    s.events = .host (.read (sp.addr i)) :: es →
    step s = .next { s with
      events := es, rdata := .s16 (Config.draw16 s.draws), draws := s.draws + 1 }) ∧
  ∀ (s : State) (es : List Event) (i : Nat),
    s.status.busy = false → i < 10 → s.readProb i = none →
    s.events = .host (.read (probAddr i)) :: es →
    step s = .next { s with
      events := es, rdata := .w32 (Config.draw32 s.draws), draws := s.draws + 1 }

/-- R50 and R54: an address names an element exactly when its space exists and its index is below the space's element
count; which space each id is and how many elements it has, as R21 and R22 tabulate them; a move with any other address is refused, and a read with a legal one is not. -/
def Obligations.AddressesOutOfRangeAreRefused : Prop :=
  (∀ a : Addr, a.wf = true ↔ ∃ l : Location, resolve a = some l) ∧
  (∀ (sp : Space16) (i : Nat), ∃ id n : Nat,
    (sp, id, n) ∈ ([(.img, 0, 784), (.c1, 1, 11520), (.p1, 2, 2880), (.c2, 3, 2560), (.p2, 4, 640),
      (.h1, 5, 400), (.logit, 6, 10), (.wC1, 8, 500), (.bC1, 9, 20), (.wC2, 10, 20000), (.bC2, 11, 40),
      (.wF1, 12, 256000), (.bF1, 13, 400), (.wF2, 14, 4000), (.bF2, 15, 10)] :
        List (Space16 × Nat × Nat)) ∧
    sp.addr i = { space := id, index := i } ∧
    resolve { space := id, index := i } = if i < n then some (.mem16 sp i) else none) ∧
  (∀ i : Nat, probAddr i = { space := 7, index := i } ∧
    resolve { space := 7, index := i } = if i < 10 then some (.prob i) else none) ∧
  (∀ (s : State) (es : List Event) (a : Addr) (v : Element) (m : HostMove), a.wf = false →
    m = .read a ∨ m = .write a v ∨ m = .writeBack a → s.events = .host m :: es →
    step s = .refused (.noSuchElement a)) ∧
  ∀ (s : State) (es : List Event) (m : HostMove), m.wf = true → s.events = .host m :: es →
    ∃ t : State, step s = .next t

/-- R196: while a command runs, no move of the host but reset changes a memory, a data register or the sequencing
fields; at most ERR and ERRCODE change. -/
def Obligations.HostCannotDisturbARunningCommand : Prop :=
  ∀ (s t : State) (es : List Event) (m : HostMove),
    s.status.busy = true → s.events = .host m :: es → m ≠ .reset → step s = .next t →
    (∀ sp : Space16, t.mem sp = s.mem sp) ∧ t.prob = s.prob ∧ s.sameRegs t ∧
      t.status = { s.status with err := t.status.err, errCode := t.status.errCode }

/-! ### Reset -/

/-- R36: what every register and memory holds after reset. -/
def Obligations.ResetValues : Prop :=
  State.reset.csr .status = 0#32 ∧ State.reset.csr .cmd = 0#32 ∧
  State.reset.csr .cfg = BitVec.ofNat 32 State.reset.cfg.F.val ∧
  State.reset.csr .qIn = 0#32 ∧ State.reset.csr .qOut = 0#32 ∧ State.reset.csr .dqIn = 0#32 ∧
  State.reset.csr .dqOut = 0#32 ∧ State.reset.csr .amax = 0#32 ∧
  State.reset.status.busy = false ∧
  (∀ (sp : Space16) (i : Nat), State.reset.read16 sp i = none) ∧
  ∀ i : Nat, State.reset.readProb i = none

/-- R230 and R231: the reset move, at any time, leaves every register 0, every element without a value and the block
idle; a running command is gone, and CFG keeps its F. -/
def Obligations.ResetMoveClearsTheBlock : Prop :=
  ∀ (s : State) (es : List Event), s.events = .host .reset :: es →
    ∃ t : State, step s = .next t ∧
      t.csr .status = 0#32 ∧ t.csr .qIn = 0#32 ∧ t.csr .qOut = 0#32 ∧ t.csr .dqIn = 0#32 ∧
      t.csr .dqOut = 0#32 ∧ t.csr .amax = 0#32 ∧ t.csr .cfg = s.csr .cfg ∧ t.cfg = s.cfg ∧
      t.status.busy = false ∧ t.status.done = false ∧ t.status.err = false ∧
      (∀ (sp : Space16) (i : Nat), t.read16 sp i = none) ∧ (∀ i : Nat, t.readProb i = none) ∧
      t.events = es ∧ t.rdata = s.rdata

/-! ### The invariant -/

/-- The invariant holds after reset. -/
def Obligations.ResetMeetsTheInvariant : Prop := State.reset.Inv

/-- Every step keeps the invariant, from every state that has it. -/
def Obligations.StepKeepsTheInvariant : Prop :=
  ∀ s t : State, s.Inv → step s = .next t → t.Inv

/-- R191 and R205: a state with the invariant whose host makes legal moves alone always has a next state, and the
moves left are legal. -/
def Obligations.LegalStepsNeverStop : Prop :=
  ∀ s : State, s.Inv → s.hostLegal → ∃ t : State, step s = .next t ∧ t.hostLegal

/-- R199 and R205: from reset, whatever legal moves the host makes and however they interleave with the core's turns,
no run of any length ends in a fault or a refusal, and its last state has the invariant. -/
def Obligations.RunsFromResetNeverStop : Prop :=
  ∀ (n : Nat) (es : List Event), (∀ e ∈ es, e.wf = true) →
    ∃ t : State, runSteps n { State.reset with events := es } = .next t ∧ t.Inv

/-- R7, R20 and R22: no step changes the build parameters, and no command writes a weight memory or IMG. -/
def Obligations.BuildAndWeightsNeverChange : Prop :=
  (∀ s t : State, step s = .next t → t.cfg = s.cfg) ∧
  ∀ (i : Instr) (s t : State) (sp : Space16), exec i s = .next t →
    sp.isWeight = true ∨ sp = .img → t.mem sp = s.mem sp

/-! ### The arithmetic -/

/-- R107 and R108: one product never leaves the 32-bit range, and only the product of the two smallest operands is 2^30; the
accumulator starts at the bias times 2^F, which never wraps. -/
def Obligations.ProductAndStartNeverWrap : Prop :=
  (∀ x w : S16,
    -2 ^ 30 + 2 ^ 15 ≤ x.toInt * w.toInt ∧ x.toInt * w.toInt ≤ 2 ^ 30 ∧
      (x.toInt * w.toInt = 2 ^ 30 ↔ x.toInt = -32768 ∧ w.toInt = -32768)) ∧
  ∀ (F : Nat) (b : S16), F ≤ 15 →
    accumulate F b [] = b.toInt * 2 ^ F ∧ (b.toInt * 2 ^ F).natAbs ≤ 2 ^ 30

/-- R109: each term is added modulo 2^32, and after all terms the accumulator holds the wrapped exact sum, whatever the
order. -/
def Obligations.AccumulatorHoldsTheWrappedSum : Prop :=
  (∀ (F : Nat) (b : S16) (ps : List (S16 × S16)) (x w : S16),
    accumulate F b (ps ++ [(x, w)]) = wrap32 (accumulate F b ps + x.toInt * w.toInt)) ∧
  (∀ (F : Nat) (b : S16) (ps : List (S16 × S16)), accumulate F b ps = wrap32 (exactSum F b ps)) ∧
  ∀ (F : Nat) (b : S16) (ps qs : List (S16 × S16)), ps.Perm qs →
    accumulate F b ps = accumulate F b qs

/-- R114: the stored result is bits F+15 down to F of the accumulator; without ReLU it does not depend on whether the
accumulator wrapped; with ReLU the wrap can change the clamping alone. -/
def Obligations.OverflowChangesOnlyTheReluDecision : Prop :=
  ∀ (F : Nat) (b : S16) (ps : List (S16 × S16)), F ≤ 15 →
    reduce F b ps false = (BitVec.ofInt 32 (accumulate F b ps)).extractLsb' F 16 ∧
      reduce F b ps false = wrap16 (exactSum F b ps / 2 ^ F) ∧
      reduce F b ps true =
        if wrap32 (exactSum F b ps) < 0 then 0#16 else wrap16 (exactSum F b ps / 2 ^ F)

/-- R115: inside the bounds the accumulator holds the exact sum and the stored value is the intended one. -/
def Obligations.BoundedDataGivesTheIdealResult : Prop :=
  ∀ (F A B : Nat) (b : S16) (ps : List (S16 × S16)), F ≤ 15 →
    (∀ p ∈ ps, p.1.toInt.natAbs ≤ A ∧ p.2.toInt.natAbs ≤ B) →
    2 ^ (15 + F) + ps.length * A * B < 2 ^ 31 →
    accumulate F b ps = exactSum F b ps ∧
      (max (exactSum F b ps / 2 ^ F) 0 ≤ 32767 →
        (reduce F b ps true).toInt = max (exactSum F b ps / 2 ^ F) 0) ∧
      (-32768 ≤ exactSum F b ps / 2 ^ F → exactSum F b ps / 2 ^ F ≤ 32767 →
        (reduce F b ps false).toInt = exactSum F b ps / 2 ^ F)

/-- R104: the result of dequantize is finite and exact, zero gives +0.0, and every other result has an exponent between
-15 and 15 (a field from 112 to 142), so none is subnormal or -0.0. Values are counted in units of 2^-149. -/
def Obligations.DequantizeIsExact : Prop :=
  ∀ (F : Nat) (q : S16), F ≤ 15 →
    F32.isFinite (dequantize F q) = true ∧
    F32.scaled (dequantize F q) = q.toInt * 2 ^ (149 - F) ∧
    (q = 0#16 → dequantize F q = 0#32) ∧
    (q ≠ 0#16 → 112 ≤ F32.mag (dequantize F q) / 2 ^ 23 ∧ F32.mag (dequantize F q) / 2 ^ 23 ≤ 142)

/-- R106: quantize undoes dequantize, and where the rounded integer fits 16 bits dequantize comes back within
2^-(F+1), under either tie rule. -/
def Obligations.QuantizeRoundTrip : Prop :=
  ∀ (tie : QuantTie) (F : Nat), F ≤ 15 →
    (∀ q : S16, quantize tie F (dequantize F q) = some q) ∧
    ∀ (v : F32) (q : S16), quantize tie F v = some q →
      -32768 ≤ roundedScaled tie F v → roundedScaled tie F v ≤ 32767 →
      (F32.scaled (dequantize F q) - F32.scaled v).natAbs ≤ 2 ^ (149 - (F + 1))

/-! ### QUANT, DEQUANT and NOP -/

/-- R103: QUANT completes on every operand. For a finite operand Q_OUT holds the low 16 bits of the integer nearest to
`Q_IN * 2^F`, a tie going by the build's rule, with zeros above; for a NaN or an infinity some 16-bit value with zeros
above. Nothing else changes. -/
def Obligations.QuantComputes : Prop :=
  decode 0x00000009#32 = .ok .quant ∧ Instr.firstStage .quant = 9#4 ∧
  ∀ s : State, ∃ t : State, exec .quant s = .next t ∧
    (F32.isFinite s.qIn = true →
      ∃ n : Int, t.csr .qOut = 0#16 ++ BitVec.ofInt 16 n ∧
        (2 * (F32.scaled s.qIn * 2 ^ s.cfg.F.val - n * 2 ^ 149)).natAbs ≤ 2 ^ 149 ∧
        ((2 * (F32.scaled s.qIn * 2 ^ s.cfg.F.val - n * 2 ^ 149)).natAbs = 2 ^ 149 →
          match s.cfg.quantTie with
          | .away => (F32.scaled s.qIn * 2 ^ s.cfg.F.val).natAbs < (n * 2 ^ 149).natAbs
          | .even => n % 2 = 0)) ∧
    (F32.isFinite s.qIn = false → ∃ v : S16, t.csr .qOut = 0#16 ++ v) ∧
    s.completedFrom t ∧ s.sameMem t ∧ s.sameProb t ∧ s.sameHost t ∧
    t.cfg = s.cfg ∧ t.qIn = s.qIn ∧ t.dqIn = s.dqIn ∧ t.dqOut = s.dqOut ∧ t.amax = s.amax

/-- R105: DEQUANT completes on every operand, DQ_OUT holds the dequantized low half of DQ_IN, whose value is exact, and
nothing else changes. -/
def Obligations.DequantComputes : Prop :=
  decode 0x0000000A#32 = .ok .dequant ∧ Instr.firstStage .dequant = 10#4 ∧
  ∀ s : State, ∃ t : State, exec .dequant s = .next t ∧
    t.csr .dqOut = dequantize s.cfg.F.val s.dqIn ∧
    F32.isFinite t.dqOut = true ∧ F32.scaled t.dqOut = s.dqIn.toInt * 2 ^ (149 - s.cfg.F.val) ∧
    s.completedFrom t ∧ s.sameMem t ∧ s.sameProb t ∧ s.sameHost t ∧
    t.cfg = s.cfg ∧ t.qIn = s.qIn ∧ t.qOut = s.qOut ∧ t.dqIn = s.dqIn ∧ t.amax = s.amax

/-- R194: NOP completes and changes nothing but the STATUS fields of completion. -/
def Obligations.NopOnlyCompletes : Prop :=
  decode 0x00000000#32 = .ok .nop ∧ Instr.firstStage .nop = 0#4 ∧
  ∀ s : State, exec .nop s =
    .next { s with status := { s.status with busy := false, done := true, stage := 0#4 } }

/-! ### The convolution stages -/

/-- R121: CONV1 completes from every state. Element [k][y][x] of C1 is the wrapped, rescaled, clamped and narrowed sum
wherever the bias, the 25 inputs and the 25 weights that it reads hold values, whatever the others hold (R65); nothing else
changes. -/
def Obligations.Conv1Computes : Prop :=
  decode 0x00000001#32 = .ok .conv1 ∧ Instr.firstStage .conv1 = 1#4 ∧
  ∀ (s : State) (img ker bias : Nat → S16),
    ∃ t : State, exec .conv1 s = .next t ∧
      (∀ k y x : Nat, k < 20 → y < 24 → x < 24 →
        s.read16 .bC1 k = some (bias k) →
        (∀ ky kx : Nat, ky < 5 → kx < 5 →
          s.read16 .img ((y + ky) * 28 + (x + kx)) = some (img ((y + ky) * 28 + (x + kx))) ∧
          s.read16 .wC1 ((k * 5 + ky) * 5 + kx) = some (ker ((k * 5 + ky) * 5 + kx))) →
        t.read16 .c1 ((k * 24 + y) * 24 + x) =
          some (wrap16 (max (asr (wrap32 ((bias k).toInt * 2 ^ s.cfg.F.val +
            ∑ ky ∈ Finset.range 5, ∑ kx ∈ Finset.range 5,
              (img ((y + ky) * 28 + (x + kx))).toInt * (ker ((k * 5 + ky) * 5 + kx)).toInt))
            s.cfg.F.val) 0))) ∧
      s.completedFrom t ∧ s.sameMemBut t .c1 ∧ s.sameProb t ∧ s.sameRegs t ∧ s.sameHost t

/-- R122: CONV2 completes from every state; element [k][y][x] of C2 is the sum wherever what it reads holds values (R65). -/
def Obligations.Conv2Computes : Prop :=
  decode 0x00000003#32 = .ok .conv2 ∧ Instr.firstStage .conv2 = 3#4 ∧
  ∀ (s : State) (p1 ker bias : Nat → S16),
    ∃ t : State, exec .conv2 s = .next t ∧
      (∀ k y x : Nat, k < 40 → y < 8 → x < 8 →
        s.read16 .bC2 k = some (bias k) →
        (∀ z ky kx : Nat, z < 20 → ky < 5 → kx < 5 →
          s.read16 .p1 ((z * 12 + (y + ky)) * 12 + (x + kx)) =
            some (p1 ((z * 12 + (y + ky)) * 12 + (x + kx))) ∧
          s.read16 .wC2 (((k * 20 + z) * 5 + ky) * 5 + kx) =
            some (ker (((k * 20 + z) * 5 + ky) * 5 + kx))) →
        t.read16 .c2 ((k * 8 + y) * 8 + x) =
          some (wrap16 (max (asr (wrap32 ((bias k).toInt * 2 ^ s.cfg.F.val +
            ∑ z ∈ Finset.range 20, ∑ ky ∈ Finset.range 5, ∑ kx ∈ Finset.range 5,
              (p1 ((z * 12 + (y + ky)) * 12 + (x + kx))).toInt *
                (ker (((k * 20 + z) * 5 + ky) * 5 + kx)).toInt))
            s.cfg.F.val) 0))) ∧
      s.completedFrom t ∧ s.sameMemBut t .c2 ∧ s.sameProb t ∧ s.sameRegs t ∧ s.sameHost t

/-- R124 (b): with F at most 14, zero bias and a kernel whose only tap is 2^F in the centre of input channel `z0`, the
output is the input moved by two rows and columns, clamped at 0. For every valid 5 × 5 convolution, so for both stages. -/
def Obligations.IdentityKernelCopies : Prop :=
  ∀ (F : Nat) (g : ConvShape) (inp ker : Nat → S16) (k z0 : Nat),
    F ≤ 14 → g.wf = true → g.KH = 5 → g.KW = 5 → z0 < g.Z →
    (∀ z ky kx : Nat, z < g.Z → ky < 5 → kx < 5 →
      ker (idx4 g.Z g.KH g.KW k z ky kx) =
        if z = z0 ∧ ky = 2 ∧ kx = 2 then BitVec.ofNat 16 (2 ^ F) else 0#16) →
    ∀ y x : Nat, ∃ v : S16,
      conv2d F g (fun i => some (inp i)) (fun i => some (ker i)) (fun _ => some 0#16) k y x = some v ∧
        v.toInt = max (inp (idx3 g.H g.W z0 (y + 2) (x + 2))).toInt 0

/-- R51, R54, R123 and R138: every index a convolution or a max-pool window computes lies inside the extents of its space,
for every shape those operators are defined on. -/
def Obligations.StageIndicesStayInRange : Prop :=
  (∀ (g : ConvShape) (k z y x ky kx : Nat), g.wf = true → k < g.K → z < g.Z → y < g.OH →
    x < g.OW → ky < g.KH → kx < g.KW →
    idx3 g.H g.W z (y + ky) (x + kx) < g.inputs ∧
      idx4 g.Z g.KH g.KW k z ky kx < g.weights ∧ idx3 g.OH g.OW k y x < g.outputs) ∧
  ∀ (g : PoolShape) (c y x dy dx : Nat), g.wf = true → c < g.C → y < g.H / 2 → x < g.W / 2 →
    dy < 2 → dx < 2 →
    idx3 g.H g.W c (2 * y + dy) (2 * x + dx) < g.C * g.H * g.W ∧
      idx3 (g.H / 2) (g.W / 2) c y x < g.outputs

/-! ### The max-pool stages -/

/-- R136: POOL1 completes from every state. An element of P1 whose window holds four values is one of them and none of them
is greater, as signed integers, whatever the rest of C1 holds (R65); nothing else changes. -/
def Obligations.Pool1Computes : Prop :=
  decode 0x00000002#32 = .ok .pool1 ∧ Instr.firstStage .pool1 = 2#4 ∧
  ∀ (s : State) (c1 : Nat → S16),
    ∃ t : State, exec .pool1 s = .next t ∧
      (∀ c y x b : Nat, c < 20 → y < 12 → x < 12 → b = (c * 24 + 2 * y) * 24 + 2 * x →
        (∀ d : Nat, d = 0 ∨ d = 1 ∨ d = 24 ∨ d = 25 → s.read16 .c1 (b + d) = some (c1 (b + d))) →
        ∃ v : S16, t.read16 .p1 ((c * 12 + y) * 12 + x) = some v ∧
          (v = c1 b ∨ v = c1 (b + 1) ∨ v = c1 (b + 24) ∨ v = c1 (b + 25)) ∧
          (c1 b).toInt ≤ v.toInt ∧ (c1 (b + 1)).toInt ≤ v.toInt ∧
          (c1 (b + 24)).toInt ≤ v.toInt ∧ (c1 (b + 25)).toInt ≤ v.toInt) ∧
      s.completedFrom t ∧ s.sameMemBut t .p1 ∧ s.sameProb t ∧ s.sameRegs t ∧ s.sameHost t

/-- R137: POOL2, in the same way. -/
def Obligations.Pool2Computes : Prop :=
  decode 0x00000004#32 = .ok .pool2 ∧ Instr.firstStage .pool2 = 4#4 ∧
  ∀ (s : State) (c2 : Nat → S16),
    ∃ t : State, exec .pool2 s = .next t ∧
      (∀ c y x b : Nat, c < 40 → y < 4 → x < 4 → b = (c * 8 + 2 * y) * 8 + 2 * x →
        (∀ d : Nat, d = 0 ∨ d = 1 ∨ d = 8 ∨ d = 9 → s.read16 .c2 (b + d) = some (c2 (b + d))) →
        ∃ v : S16, t.read16 .p2 ((c * 4 + y) * 4 + x) = some v ∧
          (v = c2 b ∨ v = c2 (b + 1) ∨ v = c2 (b + 8) ∨ v = c2 (b + 9)) ∧
          (c2 b).toInt ≤ v.toInt ∧ (c2 (b + 1)).toInt ≤ v.toInt ∧
          (c2 (b + 8)).toInt ≤ v.toInt ∧ (c2 (b + 9)).toInt ≤ v.toInt) ∧
      s.completedFrom t ∧ s.sameMemBut t .p2 ∧ s.sameProb t ∧ s.sameRegs t ∧ s.sameHost t

/-! ### The dense stages -/

/-- R146: FC1 completes from every state; element `k` of H1 is the sum, with ReLU, wherever P2, row `k` and the bias `k` hold
values, whatever the other rows hold (R65). -/
def Obligations.Fc1Computes : Prop :=
  decode 0x00000005#32 = .ok .fc1 ∧ Instr.firstStage .fc1 = 5#4 ∧
  ∀ (s : State) (p2 wt bias : Nat → S16),
    ∃ t : State, exec .fc1 s = .next t ∧
      (∀ k : Nat, k < 400 →
        s.read16 .bF1 k = some (bias k) →
        (∀ i : Nat, i < 640 → s.read16 .p2 i = some (p2 i) ∧
          s.read16 .wF1 (k * 640 + i) = some (wt (k * 640 + i))) →
        t.read16 .h1 k =
          some (wrap16 (max (asr (wrap32 ((bias k).toInt * 2 ^ s.cfg.F.val +
            ∑ i ∈ Finset.range 640, (p2 i).toInt * (wt (k * 640 + i)).toInt)) s.cfg.F.val) 0))) ∧
      s.completedFrom t ∧ s.sameMemBut t .h1 ∧ s.sameProb t ∧ s.sameRegs t ∧ s.sameHost t

/-- R147: FC2 in the same way, without ReLU. -/
def Obligations.Fc2Computes : Prop :=
  decode 0x00000006#32 = .ok .fc2 ∧ Instr.firstStage .fc2 = 6#4 ∧
  ∀ (s : State) (h1 wt bias : Nat → S16),
    ∃ t : State, exec .fc2 s = .next t ∧
      (∀ k : Nat, k < 10 →
        s.read16 .bF2 k = some (bias k) →
        (∀ i : Nat, i < 400 → s.read16 .h1 i = some (h1 i) ∧
          s.read16 .wF2 (k * 400 + i) = some (wt (k * 400 + i))) →
        t.read16 .logit k =
          some (wrap16 (asr (wrap32 ((bias k).toInt * 2 ^ s.cfg.F.val +
            ∑ i ∈ Finset.range 400, (h1 i).toInt * (wt (k * 400 + i)).toInt)) s.cfg.F.val))) ∧
      s.completedFrom t ∧ s.sameMemBut t .logit ∧ s.sameProb t ∧ s.sameRegs t ∧ s.sameHost t

/-- R149: a row whose only weight is 2^F at column `c`, with zero bias and F at most 14, copies element `c` of the input,
clamped at 0 where ReLU is on. -/
def Obligations.IdentityRowCopies : Prop :=
  ∀ (F : Nat) (g : DenseShape) (x wt : Nat → S16) (k c : Nat),
    F ≤ 14 → c < g.In →
    (∀ i : Nat, i < g.In → wt (idx2 g.In k i) = if i = c then BitVec.ofNat 16 (2 ^ F) else 0#16) →
    dense F g (fun i => some (x i)) (fun i => some (wt i)) (fun _ => some 0#16) false k = some (x c) ∧
      ∃ v : S16,
        dense F g (fun i => some (x i)) (fun i => some (wt i)) (fun _ => some 0#16) true k = some v ∧
          v.toInt = max (x c).toInt 0

/-! ### Operands without a value -/

/-- R65: an output element of a convolution, pooling or dense stage whose computation reads an element without a value is
the unspecified value set aside for it, and the stage completes all the same. Which draw that is, is the model's choice
(log 5). -/
def Obligations.UnwrittenOperandGivesUnspecifiedOutput : Prop :=
  ∀ s : State,
    (∀ k y x : Nat, k < 20 → y < 24 → x < 24 →
      (s.read16 .bC1 k = none ∨ ∃ ky kx : Nat, ky < 5 ∧ kx < 5 ∧
        (s.read16 .img ((y + ky) * 28 + (x + kx)) = none ∨
          s.read16 .wC1 ((k * 5 + ky) * 5 + kx) = none)) →
      ∃ t : State, exec .conv1 s = .next t ∧
        t.read16 .c1 ((k * 24 + y) * 24 + x) =
          some (Config.draw16 (s.draws + ((k * 24 + y) * 24 + x)))) ∧
    (∀ k y x : Nat, k < 40 → y < 8 → x < 8 →
      (s.read16 .bC2 k = none ∨ ∃ z ky kx : Nat, z < 20 ∧ ky < 5 ∧ kx < 5 ∧
        (s.read16 .p1 ((z * 12 + (y + ky)) * 12 + (x + kx)) = none ∨
          s.read16 .wC2 (((k * 20 + z) * 5 + ky) * 5 + kx) = none)) →
      ∃ t : State, exec .conv2 s = .next t ∧
        t.read16 .c2 ((k * 8 + y) * 8 + x) =
          some (Config.draw16 (s.draws + ((k * 8 + y) * 8 + x)))) ∧
    (∀ c y x b : Nat, c < 40 → y < 4 → x < 4 → b = (c * 8 + 2 * y) * 8 + 2 * x →
      (s.read16 .c2 b = none ∨ s.read16 .c2 (b + 1) = none ∨ s.read16 .c2 (b + 8) = none ∨
        s.read16 .c2 (b + 9) = none) →
      ∃ t : State, exec .pool2 s = .next t ∧
        t.read16 .p2 ((c * 4 + y) * 4 + x) =
          some (Config.draw16 (s.draws + ((c * 4 + y) * 4 + x)))) ∧
    (∀ c y x b : Nat, c < 20 → y < 12 → x < 12 → b = (c * 24 + 2 * y) * 24 + 2 * x →
      (s.read16 .c1 b = none ∨ s.read16 .c1 (b + 1) = none ∨ s.read16 .c1 (b + 24) = none ∨
        s.read16 .c1 (b + 25) = none) →
      ∃ t : State, exec .pool1 s = .next t ∧
        t.read16 .p1 ((c * 12 + y) * 12 + x) =
          some (Config.draw16 (s.draws + ((c * 12 + y) * 12 + x)))) ∧
    (∀ k : Nat, k < 400 →
      (s.read16 .bF1 k = none ∨
        ∃ i : Nat, i < 640 ∧ (s.read16 .p2 i = none ∨ s.read16 .wF1 (k * 640 + i) = none)) →
      ∃ t : State, exec .fc1 s = .next t ∧
        t.read16 .h1 k = some (Config.draw16 (s.draws + k))) ∧
    ∀ k : Nat, k < 10 →
      (s.read16 .bF2 k = none ∨
        ∃ i : Nat, i < 400 ∧ (s.read16 .h1 i = none ∨ s.read16 .wF2 (k * 400 + i) = none)) →
      ∃ t : State, exec .fc2 s = .next t ∧
        t.read16 .logit k = some (Config.draw16 (s.draws + k))

/-- R65 and R102: SOFTMAX with a logit that holds no value leaves ten unspecified probabilities; ARGMAX with such a
probability leaves an unspecified class from 0 to 9; QUANT of a NaN or an infinity leaves an unspecified low half. All three
complete. Which draw each takes is the model's choice (log 5). -/
def Obligations.UnspecifiedResultsAreDraws : Prop :=
  ∀ s : State,
    ((∃ i : Nat, i < 10 ∧ s.read16 .logit i = none) →
      ∃ t : State, exec .softmax s = .next t ∧
        ∀ i : Nat, i < 10 → t.readProb i = some (Config.draw32 (s.draws + i))) ∧
    ((∃ i : Nat, i < 10 ∧ s.readProb i = none) →
      ∃ t : State, exec .argmax s = .next t ∧
        t.amax.toNat = (Config.drawClass s.draws).val ∧ t.amax.toNat ≤ 9) ∧
    (F32.isFinite s.qIn = false →
      ∃ t : State, exec .quant s = .next t ∧ t.csr .qOut = 0#16 ++ Config.draw16 s.draws)

/-! ### Softmax and argmax -/

/-- R11, R160: what `fadd` and `fdiv` answer on finite operands and a divisor other than zero is the exact sum or quotient
rounded once, to nearest with ties to even, wherever that real number is below the rounding limit of binary32. R162: a
shifted value is the f32 whose real value is exactly the difference over 2^F, for every difference of two logits, and +0.0
for the difference 0. R168: SOFTMAX
on written logits whose maximum is `M`: shifted exponentials, their `fadd` in index order, the fallback below the epsilon,
otherwise one `fdiv` for each element; nothing else changes. -/
def Obligations.SoftmaxComputes : Prop :=
  (∀ a b : F32, a.isFinite = true → b.isFinite = true →
    (a.scaled + b.scaled).natAbs < (2 ^ 25 - 1) * 2 ^ 252 →
    IsNearestF32 (F32.fadd a b) (a.scaled + b.scaled) 1) ∧
  (∀ a b : F32, a.isFinite = true → b.isFinite = true → b.scaled ≠ 0 →
    a.scaled.natAbs * 2 ^ 149 < (2 ^ 25 - 1) * 2 ^ 252 * b.scaled.natAbs →
    IsNearestF32 (F32.fdiv a b) (a.scaled * b.scaled.sign * 2 ^ 149) b.scaled.natAbs) ∧
  (∀ (F : Nat) (z : Int), F ≤ 15 → -65535 ≤ z → z ≤ 0 →
    (F32.ofFixed F z).isFinite = true ∧ (F32.ofFixed F z).scaled = z * 2 ^ (149 - F) ∧
      (z = 0 → F32.ofFixed F z = 0#32)) ∧
  decode 0x00000007#32 = .ok .softmax ∧ Instr.firstStage .softmax = 7#4 ∧
  ∀ (s : State) (L : Nat → S16) (M : Int) (e : Nat → F32) (total : F32),
    (∀ i, i < 10 → s.read16 .logit i = some (L i)) →
    (∀ i, i < 10 → (L i).toInt ≤ M) → (∃ i, i < 10 ∧ (L i).toInt = M) →
    (∀ i, e i = Config.expUnit.exp32 (F32.ofFixed s.cfg.F.val ((L i).toInt - M))) →
    total = [e 1, e 2, e 3, e 4, e 5, e 6, e 7, e 8, e 9].foldl F32.fadd (e 0) →
    ∃ t : State, exec .softmax s = .next t ∧
      (∀ i, i < 10 → t.readProb i =
        some (if F32.flt total s.cfg.softmaxEps then 0x3DCCCCCD#32 else F32.fdiv (e i) total)) ∧
      s.completedFrom t ∧ s.sameMem t ∧ s.sameRegs t ∧ s.sameHost t

/-- R170: ARGMAX on written probabilities puts their argmax into AMAX with zeros above; nothing else changes. -/
def Obligations.ArgmaxComputes : Prop :=
  decode 0x00000008#32 = .ok .argmax ∧ Instr.firstStage .argmax = 8#4 ∧
  ∀ (s : State) (P : Nat → F32),
    (∀ i, i < 10 → s.readProb i = some (P i)) →
    ∃ t : State, exec .argmax s = .next t ∧
      t.csr .amax =
        BitVec.ofNat 32 (argmax [P 0, P 1, P 2, P 3, P 4, P 5, P 6, P 7, P 8, P 9]) ∧
      s.completedFrom t ∧ s.sameMem t ∧ s.sameProb t ∧ s.sameHost t ∧
      t.cfg = s.cfg ∧ t.qIn = s.qIn ∧ t.qOut = s.qOut ∧ t.dqIn = s.dqIn ∧ t.dqOut = s.dqOut

/-- R11: the ordered comparisons are those of the real values for finite operands, put the infinities at the two ends, and are
false where an operand is a NaN. R169: what argmax answers, on any patterns: an index such that no element is greater, every earlier element that is
no NaN is less, and which is 0 where element 0 is a NaN. -/
def Obligations.ArgmaxIsTheFirstMaximum : Prop :=
  (∀ a b : F32, a.isFinite = true → b.isFinite = true →
    F32.flt a b = decide (a.scaled < b.scaled) ∧ F32.fgt a b = decide (b.scaled < a.scaled)) ∧
  (∀ a : F32, a.isFinite = true →
    F32.flt a 0x7F800000#32 = true ∧ F32.flt 0x7F800000#32 a = false ∧
    F32.flt 0xFF800000#32 a = true ∧ F32.flt a 0xFF800000#32 = false ∧
    F32.fgt 0x7F800000#32 a = true ∧ F32.fgt a 0x7F800000#32 = false ∧
    F32.fgt a 0xFF800000#32 = true ∧ F32.fgt 0xFF800000#32 a = false) ∧
  (∀ a b : F32, a.isNaN = true ∨ b.isNaN = true → F32.flt a b = false ∧ F32.fgt a b = false) ∧
  ∀ P : List F32, P ≠ [] →
    argmax P < P.length ∧
    (∀ i : Nat, i < P.length → F32.fgt (P.getD i 0#32) (P.getD (argmax P) 0#32) = false) ∧
    (∀ i : Nat, i < argmax P → F32.isNaN (P.getD i 0#32) = false →
      F32.fgt (P.getD (argmax P) 0#32) (P.getD i 0#32) = true) ∧
    (F32.isNaN (P.getD 0 0#32) = true → argmax P = 0)

/-- R167: under E0 and E1 the sum of the ten exponentials lies between 1 and 10, so for every epsilon in (0, 1] the fallback
is not taken and the output is that of the division. -/
def Obligations.SoftmaxFallbackIsUnreachable : Prop :=
  ∀ (exp32 : F32 → F32) (F : Nat) (L : List S16) (eps : F32),
    ExpAtZero exp32 → ExpInRange exp32 F →
    F ≤ 15 → L.length = 10 → 0#32 < eps → eps ≤ 0x3F800000#32 →
    0x3F800000#32 ≤ floatSum ((shifted F L).map exp32) ∧
    floatSum ((shifted F L).map exp32) ≤ 0x41200000#32 ∧
    F32.flt (floatSum ((shifted F L).map exp32)) eps = false ∧
    softmax F exp32 eps L =
      ((shifted F L).map exp32).map fun x => F32.fdiv x (floatSum ((shifted F L).map exp32))

/-- R171 (a) and (b): under E0 to E2 and an epsilon in (0, 1], every probability is a finite number from 0 to 1, a greatest
logit gets at least a tenth, and a greater logit gets no smaller probability. A pattern of at most `0x3F800000` is exactly
a finite number from +0.0 to 1.0, and the order of those patterns is the order of the numbers. That a zero probability is
+0.0 and never -0.0 (the sign of a zero or underflowed quotient) is the model's choice, PRESUMED from IEEE 754 (log 8): R171
says 0 ≤ P[i] only. -/
def Obligations.SoftmaxRangeAndOrder : Prop :=
  ∀ (exp32 : F32 → F32) (F : Nat) (L : List S16) (eps : F32),
    ExpAtZero exp32 → ExpInRange exp32 F → ExpMonotone exp32 F →
    F ≤ 15 → L.length = 10 → 0#32 < eps → eps ≤ 0x3F800000#32 →
    ∀ i j : Nat, i < 10 → j < 10 →
      (softmax F exp32 eps L).getD i 0#32 ≤ 0x3F800000#32 ∧
      ((∀ l ∈ L, l.toInt ≤ (L.getD i 0#16).toInt) →
        0x3DCCCCCD#32 ≤ (softmax F exp32 eps L).getD i 0#32) ∧
      ((L.getD i 0#16).toInt ≤ (L.getD j 0#16).toInt →
        (softmax F exp32 eps L).getD i 0#32 ≤ (softmax F exp32 eps L).getD j 0#32)

/-- R171 (c): logits that differ by one constant, without wrapping, give bit-identical probabilities, whatever the
exponential. -/
def Obligations.SoftmaxTranslationInvariant : Prop :=
  ∀ (F : Nat) (exp32 : F32 → F32) (eps : F32) (L L' : List S16) (c : Int),
    L'.map BitVec.toInt = L.map (fun l => l.toInt + c) →
    softmax F exp32 eps L' = softmax F exp32 eps L

/-- R171 (d): ten equal logits give ten times `0x3DCCCCCD`, in every build. -/
def Obligations.EqualLogitsGiveOneTenth : Prop :=
  ∀ (s : State) (l : S16), (∀ i, i < 10 → s.read16 .logit i = some l) →
    ∃ t : State, exec .softmax s = .next t ∧
      ∀ i, i < 10 → t.readProb i = some 0x3DCCCCCD#32

/-! ### The forward pass -/

/-- R196: seven turns of the core from an accepted FORWARD give the seven stage bodies in order, and the command has
ended. -/
def Obligations.ForwardIsTheSevenStages : Prop :=
  ∀ s : State, s.status.busy = true → s.status.cur = 0x0F#8 → s.status.stage = 1#4 → s.events = [] →
    runSteps 7 s = .next
      { softmaxBody (fc2Body (fc1Body (pool2Body (conv2Body (pool1Body (conv1Body s)))))) with
        status := { s.status with busy := false, done := true, stage := 0#4 } }

/-- R195: FORWARD leaves the same state as the seven commands, each run to its end, but for CUR. Where IMG and the weights are
wholly written no unspecified value enters. Where they are not, the two runs take the same draws at the same places, and that
is the model's choice and not the spec's, which chooses each freshly (log 5). The turns of the core are entries of the
model's events (log 2). -/
def Obligations.ForwardEqualsSevenCommands : Prop :=
  ∀ s : State, s.status.busy = false →
    ∃ t : State,
      runSteps 14 { s with events := cmdLine .conv1 ++ [.core] ++ (cmdLine .pool1 ++ [.core]) ++
        (cmdLine .conv2 ++ [.core]) ++ (cmdLine .pool2 ++ [.core]) ++ (cmdLine .fc1 ++ [.core]) ++
        (cmdLine .fc2 ++ [.core]) ++ (cmdLine .softmax ++ [.core]) } = .next t ∧
      t.status.cur = 0x07#8 ∧
      runSteps 8 { s with events := cmdLine .forward ++ List.replicate 7 .core } =
        .next { t with status := { t.status with cur := 0x0F#8 } }

/-- R38 and R197: with IMG and all weights written, the result of a FORWARD depends on IMG, the weights and the build alone:
two states that agree on those end with the same contents of every memory, whatever else differs. -/
def Obligations.ForwardDependsOnImageAndWeightsOnly : Prop :=
  ∀ s₁ s₂ : State, s₁.loaded → s₁.cfg = s₂.cfg →
    (∀ (sp : Space16) (i : Nat), sp.isWeight = true ∨ sp = .img → s₁.read16 sp i = s₂.read16 sp i) →
    s₁.status.busy = true → s₁.status.cur = 0x0F#8 → s₁.status.stage = 1#4 → s₁.events = [] →
    s₂.status.busy = true → s₂.status.cur = 0x0F#8 → s₂.status.stage = 1#4 → s₂.events = [] →
    ∃ t₁ t₂ : State, runSteps 7 s₁ = .next t₁ ∧ runSteps 7 s₂ = .next t₂ ∧
      (∀ (sp : Space16) (i : Nat), t₁.read16 sp i = t₂.read16 sp i) ∧
      ∀ i : Nat, t₁.readProb i = t₂.readProb i

/-- R200 (a): an all-zero image with all-zero weights and biases gives ten zero logits and ten times `0x3DCCCCCD`, in every
build. -/
def Obligations.AllZeroForwardIsUniform : Prop :=
  ∀ s : State, s.status.busy = true → s.status.cur = 0x0F#8 → s.status.stage = 1#4 → s.events = [] →
    (∀ (sp : Space16) (i : Nat), sp.isWeight = true ∨ sp = .img → i < sp.size →
      s.read16 sp i = some 0#16) →
    ∃ t : State, runSteps 7 s = .next t ∧
      ∀ i : Nat, i < 10 → t.read16 .logit i = some 0#16 ∧ t.readProb i = some 0x3DCCCCCD#32

/-! ### The host notation, the boundary and the platform -/

/-- R86 and R87: `RUN` of a single-stage command while idle performs its stage and ends with DONE = 1 read from STATUS. That
the core has one turn between two polls is the model's choice (log 2). -/
def Obligations.RunLineCompletes : Prop :=
  ∀ (s : State) (i : Instr) (es : List Event), s.status.busy = false → i ≠ .forward →
    ∃ b t : State, stageBody i.firstStage s = some b ∧
      runSteps 4 { s with events := runLine i ++ es } = .next t ∧
      t = { b with
        events := es
        status := { s.status with busy := false, done := true, stage := 0#4, cur := i.opcode }
        rdata := .w32 t.status.toWord }

/-- R87 and R185: `QLOAD` while idle stores the quantized pattern in its element and leaves every other element as it was, and
a weight converted offline is stored in one step with the same value; of a NaN or an infinity `QLOAD` stores a draw and the
offline loader the free value it was given, which is the model's choice (log 18). That the 32-bit value read from Q_OUT is written to a 16-bit element as its low half
is the model's choice (log 7), and so are the spaces that QLOAD takes, all but PROB (log 25), the one turn of the core between
two polls (log 2) and which draw is taken (log 5). -/
def Obligations.QloadStoresTheQuantizedWeight : Prop :=
  ∀ (s : State) (sp : Space16) (i : Nat) (p : F32) (free : Space16 → Nat → S16) (es : List Event),
    s.status.busy = false → i < sp.size →
    ∃ t u : State, runSteps 7 { s with events := qloadLine sp i p ++ es } = .next t ∧
      step { s with
        events := loadOffline s.cfg.quantTie s.cfg.F.val free sp [(i, p)] ++ es } = .next u ∧
      (∀ q : S16, quantize s.cfg.quantTie s.cfg.F.val p = some q →
        t.read16 sp i = some q ∧ u.read16 sp i = some q) ∧
      (F32.isFinite p = false →
        t.read16 sp i = some (Config.draw16 s.draws) ∧ u.read16 sp i = some (free sp i)) ∧
      t.events = es ∧ u.events = es ∧ s.sameProb t ∧ s.sameProb u ∧
      ∀ (sp' : Space16) (j : Nat), ¬(sp' = sp ∧ j = i) →
        t.read16 sp' j = s.read16 sp' j ∧ u.read16 sp' j = s.read16 sp' j

/-- R180 and R181: the loading lists put every weight at its own index: the float kernel weight [ky][kx][z][k] at
`idx4`, and the dense weight of input (h*4 + w)*40 + c at column c*16 + h*4 + w. -/
def Obligations.WeightLayoutPairsIndices : Prop :=
  (∀ (Wf : Nat → Nat → F32) (k c h w : Nat), k < 400 → c < 40 → h < 4 → w < 4 →
    (fc1Entries Wf)[k * 640 + (c * 16 + h * 4 + w)]? =
      some (k * 640 + (c * 16 + h * 4 + w), Wf ((h * 4 + w) * 40 + c) k)) ∧
  (∀ Wf : Nat → Nat → F32, (fc1Entries Wf).length = 256000) ∧
  (∀ (g : ConvShape) (Wf : Nat → Nat → Nat → Nat → F32) (k z ky kx : Nat),
    k < g.K → z < g.Z → ky < g.KH → kx < g.KW →
    (convEntries g Wf)[idx4 g.Z g.KH g.KW k z ky kx]? =
      some (idx4 g.Z g.KH g.KW k z ky kx, Wf ky kx z k)) ∧
  ∀ (Wf : Nat → Nat → F32) (k i : Nat), k < 10 → i < 400 →
    (fc2Entries Wf)[k * 400 + i]? = some (k * 400 + i, Wf i k)

/-- R183: a normalised pixel is the floor of p * 2^F / 255, lies from 0 to 2^F, and is 2^F for p = 255, for F at most 14. -/
def Obligations.NormalizedPixelRange : Prop :=
  ∀ (F : Nat) (p : BitVec 8), F ≤ 14 →
    (normalizePixel F p).toInt = (p.toNat * 2 ^ F / 255 : Nat) ∧
    0 ≤ (normalizePixel F p).toInt ∧ (normalizePixel F p).toInt ≤ 2 ^ F ∧
    (p = 255#8 → (normalizePixel F p).toInt = 2 ^ F)

/-- R53 and R56: the platform's byte view is little-endian and loses nothing; under any bases a wrapper may have, an element's
byte address is its base plus 2 or 4 times its index and is naturally aligned; the platform's own address is one of these. -/
def Obligations.PlatformByteView : Prop :=
  (∀ v : Element, Element.ofBytes v.bytes = some v) ∧
  (∀ (v : S16) (b0 b1 : BitVec 8), (Element.s16 v).bytes = [b0, b1] →
    v.toNat = b0.toNat + 256 * b1.toNat) ∧
  (∀ v : U32, (Element.w32 v).bytes.length = 4 ∧
    (Element.w32 v).bytes.head? = some (v.extractLsb' 0 8)) ∧
  (∀ (m : PlatformMap) (sp : Space16) (i : Nat) (r : Csr),
    (Location.mem16 sp i).byteAddrFrom m = m.base sp.id + 2 * i ∧
    (Location.prob i).byteAddrFrom m = m.base 7 + 4 * i ∧
    (Location.csr r).byteAddrFrom m = m.base 16 + 4 * r.index) ∧
  (∀ (m : PlatformMap) (l : Location), l.byteAddrFrom m % l.byteWidth = 0) ∧
  ∀ l : Location, l.byteAddr % l.byteWidth = 0
end

