-- ==== Sys2Proof/Laws/Memory.lean ====
section
/-! SUPPORT. The laws of one memory: read after write, the canonical form, and tabulation. -/

namespace Sys2Proof.Machine

variable {w : Nat}

@[simp] theorem Memory.read_nil (i : Nat) : Memory.read ([] : Memory w) i = none := rfl

/-- A read after a write gives the value written at its index and what stood before anywhere else. -/
theorem Memory.read_write (m : Memory w) (i j : Nat) (v : BitVec w) :
    Memory.read (Memory.write m i v) j = if j = i then some v else Memory.read m j := by
  induction m with
  | nil => simp [Memory.write, Memory.read]
  | cons e m ih =>
    obtain ⟨k, u⟩ := e
    rcases lt_trichotomy i k with h | h | h
    · simp [Memory.write, Memory.read, h]
    · subst h
      by_cases hj : j = i <;> simp [Memory.write, Memory.read, hj]
    · have h1 : ¬ i < k := by omega
      have h2 : ¬ i = k := by omega
      simp only [Memory.write, h1, h2, if_false, Memory.read, ih]
      by_cases hj : j = k
      · simp [hj, Ne.symm h2]
      · simp [hj]

@[simp] theorem Memory.read_write_same (m : Memory w) (i : Nat) (v : BitVec w) :
    Memory.read (Memory.write m i v) i = some v := by simp [Memory.read_write]

theorem Memory.read_write_other (m : Memory w) {i j : Nat} (v : BitVec w) (h : j ≠ i) :
    Memory.read (Memory.write m i v) j = Memory.read m j := by simp [Memory.read_write, h]

/-- The canonical form from a lower bound is kept by a write at or above that bound. -/
theorem Memory.wfFrom_write (n : Nat) (m : Memory w) (lo i : Nat) (v : BitVec w)
    (hm : Memory.wfFrom n lo m = true) (hlo : lo ≤ i) (hi : i < n) :
    Memory.wfFrom n lo (Memory.write m i v) = true := by
  induction m generalizing lo with
  | nil => simp [Memory.write, Memory.wfFrom, hlo, hi]
  | cons e m ih =>
    obtain ⟨k, u⟩ := e
    simp only [Memory.wfFrom, Bool.and_eq_true, decide_eq_true_eq] at hm
    obtain ⟨⟨hk, hkn⟩, hm⟩ := hm
    rcases lt_trichotomy i k with h | h | h
    · simp [Memory.write, Memory.wfFrom, h, hlo, hi, hkn, hm, Nat.succ_le_of_lt h]
    · subst h
      simp [Memory.write, Memory.wfFrom, hlo, hi, hm]
    · have h1 : ¬ i < k := by omega
      have h2 : ¬ i = k := by omega
      simp [Memory.write, h1, h2, Memory.wfFrom, hk, hkn, ih (k + 1) hm h]

/-- A write below the element count keeps the canonical form. -/
theorem Memory.wf_write {n : Nat} {m : Memory w} {i : Nat} (v : BitVec w)
    (hm : Memory.wf n m = true) (hi : i < n) : Memory.wf n (Memory.write m i v) = true :=
  Memory.wfFrom_write n m 0 i v hm (Nat.zero_le i) hi

theorem Memory.read_tabulateFrom (f : Nat → BitVec w) (n lo i : Nat) :
    Memory.read (Memory.tabulateFrom f n lo) i = if lo ≤ i ∧ i < lo + n then some (f i) else none := by
  induction n generalizing lo with
  | zero =>
    have : ¬ (lo ≤ i ∧ i < lo + 0) := by omega
    simp only [Memory.tabulateFrom, Memory.read, if_neg this]
  | succ n ih =>
    simp only [Memory.tabulateFrom, Memory.read, ih]
    by_cases h : i = lo
    · subst h; simp
    · have : (lo + 1 ≤ i ∧ i < lo + 1 + n) ↔ (lo ≤ i ∧ i < lo + (n + 1)) := by omega
      simp only [if_neg h, this]

/-- What a read of a tabulated memory gives. -/
theorem Memory.read_tabulate (f : Nat → BitVec w) (n i : Nat) :
    Memory.read (Memory.tabulate n f) i = if i < n then some (f i) else none := by
  simp [Memory.tabulate, Memory.read_tabulateFrom]

theorem Memory.wfFrom_tabulateFrom (f : Nat → BitVec w) (n lo : Nat) :
    Memory.wfFrom (lo + n) lo (Memory.tabulateFrom f n lo) = true := by
  induction n generalizing lo with
  | zero => rfl
  | succ n ih =>
    have h := ih (lo + 1)
    rw [show lo + 1 + n = lo + (n + 1) by omega] at h
    simp [Memory.tabulateFrom, Memory.wfFrom, h]

/-- A tabulated memory has the canonical form. -/
theorem Memory.wf_tabulate (f : Nat → BitVec w) (n : Nat) :
    Memory.wf n (Memory.tabulate n f) = true := by
  simpa [Memory.wf, Memory.tabulate] using Memory.wfFrom_tabulateFrom f n 0

@[simp] theorem Memory.wf_nil (n : Nat) : Memory.wf n ([] : Memory w) = true := rfl

theorem Memory.read_lt_of_wfFrom {n : Nat} {m : Memory w} {lo i : Nat} {v : BitVec w}
    (hm : Memory.wfFrom n lo m = true) (h : Memory.read m i = some v) : i < n := by
  induction m generalizing lo with
  | nil => simp at h
  | cons e m ih =>
    obtain ⟨k, u⟩ := e
    simp only [Memory.wfFrom, Bool.and_eq_true, decide_eq_true_eq] at hm
    by_cases hk : i = k
    · omega
    · rw [Memory.read, if_neg hk] at h
      exact ih hm.2 h

/-- In the canonical form no element beyond the element count holds a value. -/
theorem Memory.read_of_wf {n : Nat} {m : Memory w} {i : Nat} (hm : Memory.wf n m = true)
    (hi : n ≤ i) : Memory.read m i = none := by
  cases h : Memory.read m i with
  | none => rfl
  | some v => exact absurd (Memory.read_lt_of_wfFrom hm h) (by omega)

end Sys2Proof.Machine
end

