-- ==== Sys2Proof/Laws/State.lean ====
section
/-! SUPPORT. The fields of the state under each named update. -/

namespace Sys2Proof.Machine

/-! ### setMem -/

@[simp] theorem State.setMem_cfg (s : State) (sp : Space16) (m : Memory 16) :
    (s.setMem sp m).cfg = s.cfg := by cases sp <;> rfl
@[simp] theorem State.setMem_prob (s : State) (sp : Space16) (m : Memory 16) :
    (s.setMem sp m).prob = s.prob := by cases sp <;> rfl
@[simp] theorem State.setMem_status (s : State) (sp : Space16) (m : Memory 16) :
    (s.setMem sp m).status = s.status := by cases sp <;> rfl
@[simp] theorem State.setMem_qIn (s : State) (sp : Space16) (m : Memory 16) :
    (s.setMem sp m).qIn = s.qIn := by cases sp <;> rfl
@[simp] theorem State.setMem_qOut (s : State) (sp : Space16) (m : Memory 16) :
    (s.setMem sp m).qOut = s.qOut := by cases sp <;> rfl
@[simp] theorem State.setMem_dqIn (s : State) (sp : Space16) (m : Memory 16) :
    (s.setMem sp m).dqIn = s.dqIn := by cases sp <;> rfl
@[simp] theorem State.setMem_dqOut (s : State) (sp : Space16) (m : Memory 16) :
    (s.setMem sp m).dqOut = s.dqOut := by cases sp <;> rfl
@[simp] theorem State.setMem_amax (s : State) (sp : Space16) (m : Memory 16) :
    (s.setMem sp m).amax = s.amax := by cases sp <;> rfl
@[simp] theorem State.setMem_draws (s : State) (sp : Space16) (m : Memory 16) :
    (s.setMem sp m).draws = s.draws := by cases sp <;> rfl
@[simp] theorem State.setMem_events (s : State) (sp : Space16) (m : Memory 16) :
    (s.setMem sp m).events = s.events := by cases sp <;> rfl
@[simp] theorem State.setMem_rdata (s : State) (sp : Space16) (m : Memory 16) :
    (s.setMem sp m).rdata = s.rdata := by cases sp <;> rfl
@[simp] theorem State.setMem_mem_same (s : State) (sp : Space16) (m : Memory 16) :
    (s.setMem sp m).mem sp = m := by cases sp <;> rfl

theorem State.setMem_mem_other (s : State) {sp sp' : Space16} (m : Memory 16) (h : sp' ≠ sp) :
    (s.setMem sp m).mem sp' = s.mem sp' := by
  cases sp <;> cases sp' <;> first | rfl | exact absurd rfl h

theorem State.setMem_mem (s : State) (sp sp' : Space16) (m : Memory 16) :
    (s.setMem sp m).mem sp' = if sp' = sp then m else s.mem sp' := by
  by_cases h : sp' = sp
  · subst h; simp
  · simp [h, State.setMem_mem_other s m h]

@[simp] theorem State.setMem_readProb (s : State) (sp : Space16) (m : Memory 16) (i : Nat) :
    (s.setMem sp m).readProb i = s.readProb i := by cases sp <;> rfl

/-! ### accept -/

@[simp] theorem State.accept_cfg (s : State) (i : Instr) : (s.accept i).cfg = s.cfg := rfl
@[simp] theorem State.accept_prob (s : State) (i : Instr) : (s.accept i).prob = s.prob := rfl
@[simp] theorem State.accept_status (s : State) (i : Instr) : (s.accept i).status = s.status.accept i := rfl
@[simp] theorem State.accept_qIn (s : State) (i : Instr) : (s.accept i).qIn = s.qIn := rfl
@[simp] theorem State.accept_qOut (s : State) (i : Instr) : (s.accept i).qOut = s.qOut := rfl
@[simp] theorem State.accept_dqIn (s : State) (i : Instr) : (s.accept i).dqIn = s.dqIn := rfl
@[simp] theorem State.accept_dqOut (s : State) (i : Instr) : (s.accept i).dqOut = s.dqOut := rfl
@[simp] theorem State.accept_amax (s : State) (i : Instr) : (s.accept i).amax = s.amax := rfl
@[simp] theorem State.accept_draws (s : State) (i : Instr) : (s.accept i).draws = s.draws := rfl
@[simp] theorem State.accept_events (s : State) (i : Instr) : (s.accept i).events = s.events := rfl
@[simp] theorem State.accept_rdata (s : State) (i : Instr) : (s.accept i).rdata = s.rdata := rfl
@[simp] theorem State.accept_mem (s : State) (i : Instr) (sp : Space16) : (s.accept i).mem sp = s.mem sp := by
  cases sp <;> rfl
@[simp] theorem State.accept_read16 (s : State) (i : Instr) (sp : Space16) (k : Nat) :
    (s.accept i).read16 sp k = s.read16 sp k := by cases sp <;> rfl
@[simp] theorem State.accept_readProb (s : State) (i : Instr) (k : Nat) : (s.accept i).readProb k = s.readProb k := rfl

/-! ### complete -/

@[simp] theorem State.complete_cfg (s : State) : (s.complete).cfg = s.cfg := rfl
@[simp] theorem State.complete_prob (s : State) : (s.complete).prob = s.prob := rfl
@[simp] theorem State.complete_status (s : State) : (s.complete).status = s.status.complete := rfl
@[simp] theorem State.complete_qIn (s : State) : (s.complete).qIn = s.qIn := rfl
@[simp] theorem State.complete_qOut (s : State) : (s.complete).qOut = s.qOut := rfl
@[simp] theorem State.complete_dqIn (s : State) : (s.complete).dqIn = s.dqIn := rfl
@[simp] theorem State.complete_dqOut (s : State) : (s.complete).dqOut = s.dqOut := rfl
@[simp] theorem State.complete_amax (s : State) : (s.complete).amax = s.amax := rfl
@[simp] theorem State.complete_draws (s : State) : (s.complete).draws = s.draws := rfl
@[simp] theorem State.complete_events (s : State) : (s.complete).events = s.events := rfl
@[simp] theorem State.complete_rdata (s : State) : (s.complete).rdata = s.rdata := rfl
@[simp] theorem State.complete_mem (s : State) (sp : Space16) : (s.complete).mem sp = s.mem sp := by
  cases sp <;> rfl
@[simp] theorem State.complete_read16 (s : State) (sp : Space16) (k : Nat) :
    (s.complete).read16 sp k = s.read16 sp k := by cases sp <;> rfl
@[simp] theorem State.complete_readProb (s : State) (k : Nat) : (s.complete).readProb k = s.readProb k := rfl

/-! ### endStage -/

@[simp] theorem State.endStage_cfg (s : State) (n : StageId) : (s.endStage n).cfg = s.cfg := rfl
@[simp] theorem State.endStage_prob (s : State) (n : StageId) : (s.endStage n).prob = s.prob := rfl
@[simp] theorem State.endStage_status (s : State) (n : StageId) : (s.endStage n).status = s.status.endStage n := rfl
@[simp] theorem State.endStage_qIn (s : State) (n : StageId) : (s.endStage n).qIn = s.qIn := rfl
@[simp] theorem State.endStage_qOut (s : State) (n : StageId) : (s.endStage n).qOut = s.qOut := rfl
@[simp] theorem State.endStage_dqIn (s : State) (n : StageId) : (s.endStage n).dqIn = s.dqIn := rfl
@[simp] theorem State.endStage_dqOut (s : State) (n : StageId) : (s.endStage n).dqOut = s.dqOut := rfl
@[simp] theorem State.endStage_amax (s : State) (n : StageId) : (s.endStage n).amax = s.amax := rfl
@[simp] theorem State.endStage_draws (s : State) (n : StageId) : (s.endStage n).draws = s.draws := rfl
@[simp] theorem State.endStage_events (s : State) (n : StageId) : (s.endStage n).events = s.events := rfl
@[simp] theorem State.endStage_rdata (s : State) (n : StageId) : (s.endStage n).rdata = s.rdata := rfl
@[simp] theorem State.endStage_mem (s : State) (n : StageId) (sp : Space16) : (s.endStage n).mem sp = s.mem sp := by
  cases sp <;> rfl
@[simp] theorem State.endStage_read16 (s : State) (n : StageId) (sp : Space16) (k : Nat) :
    (s.endStage n).read16 sp k = s.read16 sp k := by cases sp <;> rfl
@[simp] theorem State.endStage_readProb (s : State) (n : StageId) (k : Nat) : (s.endStage n).readProb k = s.readProb k := rfl

/-! ### raiseCmdError -/

@[simp] theorem State.raiseCmdError_cfg (s : State) (c : ErrCode) : (s.raiseCmdError c).cfg = s.cfg := rfl
@[simp] theorem State.raiseCmdError_prob (s : State) (c : ErrCode) : (s.raiseCmdError c).prob = s.prob := rfl
@[simp] theorem State.raiseCmdError_status (s : State) (c : ErrCode) : (s.raiseCmdError c).status = s.status.raiseErr c := rfl
@[simp] theorem State.raiseCmdError_qIn (s : State) (c : ErrCode) : (s.raiseCmdError c).qIn = s.qIn := rfl
@[simp] theorem State.raiseCmdError_qOut (s : State) (c : ErrCode) : (s.raiseCmdError c).qOut = s.qOut := rfl
@[simp] theorem State.raiseCmdError_dqIn (s : State) (c : ErrCode) : (s.raiseCmdError c).dqIn = s.dqIn := rfl
@[simp] theorem State.raiseCmdError_dqOut (s : State) (c : ErrCode) : (s.raiseCmdError c).dqOut = s.dqOut := rfl
@[simp] theorem State.raiseCmdError_amax (s : State) (c : ErrCode) : (s.raiseCmdError c).amax = s.amax := rfl
@[simp] theorem State.raiseCmdError_draws (s : State) (c : ErrCode) : (s.raiseCmdError c).draws = s.draws := rfl
@[simp] theorem State.raiseCmdError_events (s : State) (c : ErrCode) : (s.raiseCmdError c).events = s.events := rfl
@[simp] theorem State.raiseCmdError_rdata (s : State) (c : ErrCode) : (s.raiseCmdError c).rdata = s.rdata := rfl
@[simp] theorem State.raiseCmdError_mem (s : State) (c : ErrCode) (sp : Space16) : (s.raiseCmdError c).mem sp = s.mem sp := by
  cases sp <;> rfl
@[simp] theorem State.raiseCmdError_read16 (s : State) (c : ErrCode) (sp : Space16) (k : Nat) :
    (s.raiseCmdError c).read16 sp k = s.read16 sp k := by cases sp <;> rfl
@[simp] theorem State.raiseCmdError_readProb (s : State) (c : ErrCode) (k : Nat) : (s.raiseCmdError c).readProb k = s.readProb k := rfl

/-! ### setQOut -/

@[simp] theorem State.setQOut_cfg (s : State) (q : Option S16) : (s.setQOut q).cfg = s.cfg := rfl
@[simp] theorem State.setQOut_prob (s : State) (q : Option S16) : (s.setQOut q).prob = s.prob := rfl
@[simp] theorem State.setQOut_status (s : State) (q : Option S16) : (s.setQOut q).status = s.status := rfl
@[simp] theorem State.setQOut_qIn (s : State) (q : Option S16) : (s.setQOut q).qIn = s.qIn := rfl
@[simp] theorem State.setQOut_qOut (s : State) (q : Option S16) : (s.setQOut q).qOut = q.getD (Config.draw16 s.draws) := rfl
@[simp] theorem State.setQOut_dqIn (s : State) (q : Option S16) : (s.setQOut q).dqIn = s.dqIn := rfl
@[simp] theorem State.setQOut_dqOut (s : State) (q : Option S16) : (s.setQOut q).dqOut = s.dqOut := rfl
@[simp] theorem State.setQOut_amax (s : State) (q : Option S16) : (s.setQOut q).amax = s.amax := rfl
@[simp] theorem State.setQOut_draws (s : State) (q : Option S16) : (s.setQOut q).draws = s.draws + 1 := rfl
@[simp] theorem State.setQOut_events (s : State) (q : Option S16) : (s.setQOut q).events = s.events := rfl
@[simp] theorem State.setQOut_rdata (s : State) (q : Option S16) : (s.setQOut q).rdata = s.rdata := rfl
@[simp] theorem State.setQOut_mem (s : State) (q : Option S16) (sp : Space16) : (s.setQOut q).mem sp = s.mem sp := by
  cases sp <;> rfl
@[simp] theorem State.setQOut_read16 (s : State) (q : Option S16) (sp : Space16) (k : Nat) :
    (s.setQOut q).read16 sp k = s.read16 sp k := by cases sp <;> rfl
@[simp] theorem State.setQOut_readProb (s : State) (q : Option S16) (k : Nat) : (s.setQOut q).readProb k = s.readProb k := rfl

/-! ### setDqOut -/

@[simp] theorem State.setDqOut_cfg (s : State) (v : F32) : (s.setDqOut v).cfg = s.cfg := rfl
@[simp] theorem State.setDqOut_prob (s : State) (v : F32) : (s.setDqOut v).prob = s.prob := rfl
@[simp] theorem State.setDqOut_status (s : State) (v : F32) : (s.setDqOut v).status = s.status := rfl
@[simp] theorem State.setDqOut_qIn (s : State) (v : F32) : (s.setDqOut v).qIn = s.qIn := rfl
@[simp] theorem State.setDqOut_qOut (s : State) (v : F32) : (s.setDqOut v).qOut = s.qOut := rfl
@[simp] theorem State.setDqOut_dqIn (s : State) (v : F32) : (s.setDqOut v).dqIn = s.dqIn := rfl
@[simp] theorem State.setDqOut_dqOut (s : State) (v : F32) : (s.setDqOut v).dqOut = v := rfl
@[simp] theorem State.setDqOut_amax (s : State) (v : F32) : (s.setDqOut v).amax = s.amax := rfl
@[simp] theorem State.setDqOut_draws (s : State) (v : F32) : (s.setDqOut v).draws = s.draws := rfl
@[simp] theorem State.setDqOut_events (s : State) (v : F32) : (s.setDqOut v).events = s.events := rfl
@[simp] theorem State.setDqOut_rdata (s : State) (v : F32) : (s.setDqOut v).rdata = s.rdata := rfl
@[simp] theorem State.setDqOut_mem (s : State) (v : F32) (sp : Space16) : (s.setDqOut v).mem sp = s.mem sp := by
  cases sp <;> rfl
@[simp] theorem State.setDqOut_read16 (s : State) (v : F32) (sp : Space16) (k : Nat) :
    (s.setDqOut v).read16 sp k = s.read16 sp k := by cases sp <;> rfl
@[simp] theorem State.setDqOut_readProb (s : State) (v : F32) (k : Nat) : (s.setDqOut v).readProb k = s.readProb k := rfl

/-! ### setAmax -/

@[simp] theorem State.setAmax_cfg (s : State) (x : Option Nat) : (s.setAmax x).cfg = s.cfg := rfl
@[simp] theorem State.setAmax_prob (s : State) (x : Option Nat) : (s.setAmax x).prob = s.prob := rfl
@[simp] theorem State.setAmax_status (s : State) (x : Option Nat) : (s.setAmax x).status = s.status := rfl
@[simp] theorem State.setAmax_qIn (s : State) (x : Option Nat) : (s.setAmax x).qIn = s.qIn := rfl
@[simp] theorem State.setAmax_qOut (s : State) (x : Option Nat) : (s.setAmax x).qOut = s.qOut := rfl
@[simp] theorem State.setAmax_dqIn (s : State) (x : Option Nat) : (s.setAmax x).dqIn = s.dqIn := rfl
@[simp] theorem State.setAmax_dqOut (s : State) (x : Option Nat) : (s.setAmax x).dqOut = s.dqOut := rfl
@[simp] theorem State.setAmax_amax (s : State) (x : Option Nat) : (s.setAmax x).amax = BitVec.ofNat 4 (x.getD (Config.drawClass s.draws).val) := rfl
@[simp] theorem State.setAmax_draws (s : State) (x : Option Nat) : (s.setAmax x).draws = s.draws + 1 := rfl
@[simp] theorem State.setAmax_events (s : State) (x : Option Nat) : (s.setAmax x).events = s.events := rfl
@[simp] theorem State.setAmax_rdata (s : State) (x : Option Nat) : (s.setAmax x).rdata = s.rdata := rfl
@[simp] theorem State.setAmax_mem (s : State) (x : Option Nat) (sp : Space16) : (s.setAmax x).mem sp = s.mem sp := by
  cases sp <;> rfl
@[simp] theorem State.setAmax_read16 (s : State) (x : Option Nat) (sp : Space16) (k : Nat) :
    (s.setAmax x).read16 sp k = s.read16 sp k := by cases sp <;> rfl
@[simp] theorem State.setAmax_readProb (s : State) (x : Option Nat) (k : Nat) : (s.setAmax x).readProb k = s.readProb k := rfl

/-! ### fillProb -/

@[simp] theorem State.fillProb_cfg (s : State) (f : Nat → Option F32) : (s.fillProb f).cfg = s.cfg := rfl
@[simp] theorem State.fillProb_status (s : State) (f : Nat → Option F32) : (s.fillProb f).status = s.status := rfl
@[simp] theorem State.fillProb_qIn (s : State) (f : Nat → Option F32) : (s.fillProb f).qIn = s.qIn := rfl
@[simp] theorem State.fillProb_qOut (s : State) (f : Nat → Option F32) : (s.fillProb f).qOut = s.qOut := rfl
@[simp] theorem State.fillProb_dqIn (s : State) (f : Nat → Option F32) : (s.fillProb f).dqIn = s.dqIn := rfl
@[simp] theorem State.fillProb_dqOut (s : State) (f : Nat → Option F32) : (s.fillProb f).dqOut = s.dqOut := rfl
@[simp] theorem State.fillProb_amax (s : State) (f : Nat → Option F32) : (s.fillProb f).amax = s.amax := rfl
@[simp] theorem State.fillProb_draws (s : State) (f : Nat → Option F32) : (s.fillProb f).draws = s.draws + numClasses := rfl
@[simp] theorem State.fillProb_events (s : State) (f : Nat → Option F32) : (s.fillProb f).events = s.events := rfl
@[simp] theorem State.fillProb_rdata (s : State) (f : Nat → Option F32) : (s.fillProb f).rdata = s.rdata := rfl
@[simp] theorem State.fillProb_mem (s : State) (f : Nat → Option F32) (sp : Space16) : (s.fillProb f).mem sp = s.mem sp := by
  cases sp <;> rfl
@[simp] theorem State.fillProb_read16 (s : State) (f : Nat → Option F32) (sp : Space16) (k : Nat) :
    (s.fillProb f).read16 sp k = s.read16 sp k := by cases sp <;> rfl

/-! ### writeProb -/

@[simp] theorem State.writeProb_cfg (s : State) (j : Nat) (v : F32) : (s.writeProb j v).cfg = s.cfg := rfl
@[simp] theorem State.writeProb_prob (s : State) (j : Nat) (v : F32) : (s.writeProb j v).prob = Memory.write s.prob j v := rfl
@[simp] theorem State.writeProb_status (s : State) (j : Nat) (v : F32) : (s.writeProb j v).status = s.status := rfl
@[simp] theorem State.writeProb_qIn (s : State) (j : Nat) (v : F32) : (s.writeProb j v).qIn = s.qIn := rfl
@[simp] theorem State.writeProb_qOut (s : State) (j : Nat) (v : F32) : (s.writeProb j v).qOut = s.qOut := rfl
@[simp] theorem State.writeProb_dqIn (s : State) (j : Nat) (v : F32) : (s.writeProb j v).dqIn = s.dqIn := rfl
@[simp] theorem State.writeProb_dqOut (s : State) (j : Nat) (v : F32) : (s.writeProb j v).dqOut = s.dqOut := rfl
@[simp] theorem State.writeProb_amax (s : State) (j : Nat) (v : F32) : (s.writeProb j v).amax = s.amax := rfl
@[simp] theorem State.writeProb_draws (s : State) (j : Nat) (v : F32) : (s.writeProb j v).draws = s.draws := rfl
@[simp] theorem State.writeProb_events (s : State) (j : Nat) (v : F32) : (s.writeProb j v).events = s.events := rfl
@[simp] theorem State.writeProb_rdata (s : State) (j : Nat) (v : F32) : (s.writeProb j v).rdata = s.rdata := rfl
@[simp] theorem State.writeProb_mem (s : State) (j : Nat) (v : F32) (sp : Space16) : (s.writeProb j v).mem sp = s.mem sp := by
  cases sp <;> rfl
@[simp] theorem State.writeProb_read16 (s : State) (j : Nat) (v : F32) (sp : Space16) (k : Nat) :
    (s.writeProb j v).read16 sp k = s.read16 sp k := by cases sp <;> rfl

/-! ### answer -/

@[simp] theorem State.answer_cfg (s : State) (v : Element) : (s.answer v).cfg = s.cfg := rfl
@[simp] theorem State.answer_prob (s : State) (v : Element) : (s.answer v).prob = s.prob := rfl
@[simp] theorem State.answer_status (s : State) (v : Element) : (s.answer v).status = s.status := rfl
@[simp] theorem State.answer_qIn (s : State) (v : Element) : (s.answer v).qIn = s.qIn := rfl
@[simp] theorem State.answer_qOut (s : State) (v : Element) : (s.answer v).qOut = s.qOut := rfl
@[simp] theorem State.answer_dqIn (s : State) (v : Element) : (s.answer v).dqIn = s.dqIn := rfl
@[simp] theorem State.answer_dqOut (s : State) (v : Element) : (s.answer v).dqOut = s.dqOut := rfl
@[simp] theorem State.answer_amax (s : State) (v : Element) : (s.answer v).amax = s.amax := rfl
@[simp] theorem State.answer_draws (s : State) (v : Element) : (s.answer v).draws = s.draws := rfl
@[simp] theorem State.answer_events (s : State) (v : Element) : (s.answer v).events = s.events := rfl
@[simp] theorem State.answer_rdata (s : State) (v : Element) : (s.answer v).rdata = v := rfl
@[simp] theorem State.answer_mem (s : State) (v : Element) (sp : Space16) : (s.answer v).mem sp = s.mem sp := by
  cases sp <;> rfl
@[simp] theorem State.answer_read16 (s : State) (v : Element) (sp : Space16) (k : Nat) :
    (s.answer v).read16 sp k = s.read16 sp k := by cases sp <;> rfl
@[simp] theorem State.answer_readProb (s : State) (v : Element) (k : Nat) : (s.answer v).readProb k = s.readProb k := rfl

/-! ### answerDraw16 -/

@[simp] theorem State.answerDraw16_cfg (s : State) : (s.answerDraw16).cfg = s.cfg := rfl
@[simp] theorem State.answerDraw16_prob (s : State) : (s.answerDraw16).prob = s.prob := rfl
@[simp] theorem State.answerDraw16_status (s : State) : (s.answerDraw16).status = s.status := rfl
@[simp] theorem State.answerDraw16_qIn (s : State) : (s.answerDraw16).qIn = s.qIn := rfl
@[simp] theorem State.answerDraw16_qOut (s : State) : (s.answerDraw16).qOut = s.qOut := rfl
@[simp] theorem State.answerDraw16_dqIn (s : State) : (s.answerDraw16).dqIn = s.dqIn := rfl
@[simp] theorem State.answerDraw16_dqOut (s : State) : (s.answerDraw16).dqOut = s.dqOut := rfl
@[simp] theorem State.answerDraw16_amax (s : State) : (s.answerDraw16).amax = s.amax := rfl
@[simp] theorem State.answerDraw16_draws (s : State) : (s.answerDraw16).draws = s.draws + 1 := rfl
@[simp] theorem State.answerDraw16_events (s : State) : (s.answerDraw16).events = s.events := rfl
@[simp] theorem State.answerDraw16_rdata (s : State) : (s.answerDraw16).rdata = .s16 (Config.draw16 s.draws) := rfl
@[simp] theorem State.answerDraw16_mem (s : State) (sp : Space16) : (s.answerDraw16).mem sp = s.mem sp := by
  cases sp <;> rfl
@[simp] theorem State.answerDraw16_read16 (s : State) (sp : Space16) (k : Nat) :
    (s.answerDraw16).read16 sp k = s.read16 sp k := by cases sp <;> rfl
@[simp] theorem State.answerDraw16_readProb (s : State) (k : Nat) : (s.answerDraw16).readProb k = s.readProb k := rfl

/-! ### answerDraw32 -/

@[simp] theorem State.answerDraw32_cfg (s : State) : (s.answerDraw32).cfg = s.cfg := rfl
@[simp] theorem State.answerDraw32_prob (s : State) : (s.answerDraw32).prob = s.prob := rfl
@[simp] theorem State.answerDraw32_status (s : State) : (s.answerDraw32).status = s.status := rfl
@[simp] theorem State.answerDraw32_qIn (s : State) : (s.answerDraw32).qIn = s.qIn := rfl
@[simp] theorem State.answerDraw32_qOut (s : State) : (s.answerDraw32).qOut = s.qOut := rfl
@[simp] theorem State.answerDraw32_dqIn (s : State) : (s.answerDraw32).dqIn = s.dqIn := rfl
@[simp] theorem State.answerDraw32_dqOut (s : State) : (s.answerDraw32).dqOut = s.dqOut := rfl
@[simp] theorem State.answerDraw32_amax (s : State) : (s.answerDraw32).amax = s.amax := rfl
@[simp] theorem State.answerDraw32_draws (s : State) : (s.answerDraw32).draws = s.draws + 1 := rfl
@[simp] theorem State.answerDraw32_events (s : State) : (s.answerDraw32).events = s.events := rfl
@[simp] theorem State.answerDraw32_rdata (s : State) : (s.answerDraw32).rdata = .w32 (Config.draw32 s.draws) := rfl
@[simp] theorem State.answerDraw32_mem (s : State) (sp : Space16) : (s.answerDraw32).mem sp = s.mem sp := by
  cases sp <;> rfl
@[simp] theorem State.answerDraw32_read16 (s : State) (sp : Space16) (k : Nat) :
    (s.answerDraw32).read16 sp k = s.read16 sp k := by cases sp <;> rfl
@[simp] theorem State.answerDraw32_readProb (s : State) (k : Nat) : (s.answerDraw32).readProb k = s.readProb k := rfl

/-! ### withEvents -/

@[simp] theorem State.withEvents_mem (s : State) (es : List Event) (sp : Space16) : ({ s with events := es }).mem sp = s.mem sp := by
  cases sp <;> rfl
@[simp] theorem State.withEvents_read16 (s : State) (es : List Event) (sp : Space16) (k : Nat) :
    ({ s with events := es }).read16 sp k = s.read16 sp k := by cases sp <;> rfl
@[simp] theorem State.withEvents_readProb (s : State) (es : List Event) (k : Nat) : ({ s with events := es }).readProb k = s.readProb k := rfl

/-! ### placeCommand -/

@[simp] theorem State.placeCommand_cfg (s : State) (i : Instr) : (s.placeCommand i).cfg = s.cfg := rfl
@[simp] theorem State.placeCommand_prob (s : State) (i : Instr) : (s.placeCommand i).prob = s.prob := rfl
@[simp] theorem State.placeCommand_status (s : State) (i : Instr) : (s.placeCommand i).status = s.status.accept i := rfl
@[simp] theorem State.placeCommand_qIn (s : State) (i : Instr) : (s.placeCommand i).qIn = s.qIn := rfl
@[simp] theorem State.placeCommand_qOut (s : State) (i : Instr) : (s.placeCommand i).qOut = s.qOut := rfl
@[simp] theorem State.placeCommand_dqIn (s : State) (i : Instr) : (s.placeCommand i).dqIn = s.dqIn := rfl
@[simp] theorem State.placeCommand_dqOut (s : State) (i : Instr) : (s.placeCommand i).dqOut = s.dqOut := rfl
@[simp] theorem State.placeCommand_amax (s : State) (i : Instr) : (s.placeCommand i).amax = s.amax := rfl
@[simp] theorem State.placeCommand_draws (s : State) (i : Instr) : (s.placeCommand i).draws = s.draws := rfl
@[simp] theorem State.placeCommand_rdata (s : State) (i : Instr) : (s.placeCommand i).rdata = s.rdata := rfl
@[simp] theorem State.placeCommand_mem (s : State) (i : Instr) (sp : Space16) : (s.placeCommand i).mem sp = s.mem sp := by
  cases sp <;> rfl
@[simp] theorem State.placeCommand_read16 (s : State) (i : Instr) (sp : Space16) (k : Nat) :
    (s.placeCommand i).read16 sp k = s.read16 sp k := by cases sp <;> rfl
@[simp] theorem State.placeCommand_readProb (s : State) (i : Instr) (k : Nat) : (s.placeCommand i).readProb k = s.readProb k := rfl

/-! ### STATUS -/

@[simp] theorem Status.accept_busy (t : Status) (i : Instr) : (t.accept i).busy = true := rfl
@[simp] theorem Status.accept_done (t : Status) (i : Instr) : (t.accept i).done = false := rfl
@[simp] theorem Status.accept_err (t : Status) (i : Instr) : (t.accept i).err = t.err := rfl
@[simp] theorem Status.accept_stage (t : Status) (i : Instr) : (t.accept i).stage = i.firstStage := rfl
@[simp] theorem Status.accept_errCode (t : Status) (i : Instr) : (t.accept i).errCode = t.errCode := rfl
@[simp] theorem Status.accept_cur (t : Status) (i : Instr) : (t.accept i).cur = i.opcode := rfl
@[simp] theorem Status.complete_busy (t : Status) : (t.complete).busy = false := rfl
@[simp] theorem Status.complete_done (t : Status) : (t.complete).done = true := rfl
@[simp] theorem Status.complete_err (t : Status) : (t.complete).err = t.err := rfl
@[simp] theorem Status.complete_stage (t : Status) : (t.complete).stage = 0#4 := rfl
@[simp] theorem Status.complete_errCode (t : Status) : (t.complete).errCode = t.errCode := rfl
@[simp] theorem Status.complete_cur (t : Status) : (t.complete).cur = t.cur := rfl
@[simp] theorem Status.advance_busy (t : Status) : (t.advance).busy = t.busy := rfl
@[simp] theorem Status.advance_done (t : Status) : (t.advance).done = t.done := rfl
@[simp] theorem Status.advance_err (t : Status) : (t.advance).err = t.err := rfl
@[simp] theorem Status.advance_stage (t : Status) : (t.advance).stage = t.stage + 1#4 := rfl
@[simp] theorem Status.advance_errCode (t : Status) : (t.advance).errCode = t.errCode := rfl
@[simp] theorem Status.advance_cur (t : Status) : (t.advance).cur = t.cur := rfl
@[simp] theorem Status.raiseErr_busy (t : Status) (c : ErrCode) : (t.raiseErr c).busy = t.busy := rfl
@[simp] theorem Status.raiseErr_done (t : Status) (c : ErrCode) : (t.raiseErr c).done = t.done := rfl
@[simp] theorem Status.raiseErr_err (t : Status) (c : ErrCode) : (t.raiseErr c).err = true := rfl
@[simp] theorem Status.raiseErr_stage (t : Status) (c : ErrCode) : (t.raiseErr c).stage = t.stage := rfl
@[simp] theorem Status.raiseErr_errCode (t : Status) (c : ErrCode) : (t.raiseErr c).errCode = (if t.err then t.errCode else c) := rfl
@[simp] theorem Status.raiseErr_cur (t : Status) (c : ErrCode) : (t.raiseErr c).cur = t.cur := rfl

end Sys2Proof.Machine
end

