-- ==== Sys2Proof/Laws/Ops.lean ====
section
/-! SUPPORT. One lemma for each shared operation that says all it does. -/

namespace Sys2Proof.Machine

/-! ### Reads and writes of the spaces -/

/-- A read after a write of one element. -/
theorem State.read16_write16 (s : State) (sp sp' : Space16) (i j : Nat) (v : S16) :
    (s.write16 sp i v).read16 sp' j = if sp' = sp ∧ j = i then some v else s.read16 sp' j := by
  by_cases h : sp' = sp
  · subst h; simp [State.write16, State.read16, Memory.read_write]
  · simp [State.write16, State.read16, h, State.setMem_mem_other s _ h]

/-- What `fill16` leaves in the 16-bit spaces. -/
theorem State.read16_fill16 (s : State) (sp sp' : Space16) (f : Nat → Option S16) (i : Nat) :
    (s.fill16 sp f).read16 sp' i =
      if sp' = sp then
        (if i < sp.size then some ((f i).getD (Config.draw16 (s.draws + i))) else none)
      else s.read16 sp' i := by
  have hm : (s.fill16 sp f).mem sp' = (s.setMem sp (Memory.tabulate sp.size fun i =>
      (f i).getD (Config.draw16 (s.draws + i)))).mem sp' := by cases sp' <;> rfl
  by_cases h : sp' = sp
  · subst h; simp [State.read16, hm, Memory.read_tabulate]
  · simp [State.read16, hm, h, State.setMem_mem_other s _ h]

theorem State.fill16_mem (s : State) (sp sp' : Space16) (f : Nat → Option S16) :
    (s.fill16 sp f).mem sp' =
      if sp' = sp then
        Memory.tabulate sp.size fun i => (f i).getD (Config.draw16 (s.draws + i))
      else s.mem sp' := by
  have hm : (s.fill16 sp f).mem sp' = (s.setMem sp (Memory.tabulate sp.size fun i =>
      (f i).getD (Config.draw16 (s.draws + i)))).mem sp' := by cases sp' <;> rfl
  rw [hm, State.setMem_mem]

@[simp] theorem State.fill16_cfg (s : State) (sp : Space16) (f : Nat → Option S16) :
    (s.fill16 sp f).cfg = s.cfg := by simp [State.fill16]
@[simp] theorem State.fill16_prob (s : State) (sp : Space16) (f : Nat → Option S16) :
    (s.fill16 sp f).prob = s.prob := by simp [State.fill16]
@[simp] theorem State.fill16_readProb (s : State) (sp : Space16) (f : Nat → Option S16) (i : Nat) :
    (s.fill16 sp f).readProb i = s.readProb i := by simp [State.readProb]
@[simp] theorem State.fill16_status (s : State) (sp : Space16) (f : Nat → Option S16) :
    (s.fill16 sp f).status = s.status := by simp [State.fill16]
@[simp] theorem State.fill16_qIn (s : State) (sp : Space16) (f : Nat → Option S16) :
    (s.fill16 sp f).qIn = s.qIn := by simp [State.fill16]
@[simp] theorem State.fill16_qOut (s : State) (sp : Space16) (f : Nat → Option S16) :
    (s.fill16 sp f).qOut = s.qOut := by simp [State.fill16]
@[simp] theorem State.fill16_dqIn (s : State) (sp : Space16) (f : Nat → Option S16) :
    (s.fill16 sp f).dqIn = s.dqIn := by simp [State.fill16]
@[simp] theorem State.fill16_dqOut (s : State) (sp : Space16) (f : Nat → Option S16) :
    (s.fill16 sp f).dqOut = s.dqOut := by simp [State.fill16]
@[simp] theorem State.fill16_amax (s : State) (sp : Space16) (f : Nat → Option S16) :
    (s.fill16 sp f).amax = s.amax := by simp [State.fill16]
@[simp] theorem State.fill16_draws (s : State) (sp : Space16) (f : Nat → Option S16) :
    (s.fill16 sp f).draws = s.draws + sp.size := rfl
@[simp] theorem State.fill16_events (s : State) (sp : Space16) (f : Nat → Option S16) :
    (s.fill16 sp f).events = s.events := by simp [State.fill16]
@[simp] theorem State.fill16_rdata (s : State) (sp : Space16) (f : Nat → Option S16) :
    (s.fill16 sp f).rdata = s.rdata := by simp [State.fill16]

/-- What `fillProb` leaves in PROB. -/
theorem State.readProb_fillProb (s : State) (f : Nat → Option F32) (i : Nat) :
    (s.fillProb f).readProb i =
      if i < numClasses then some ((f i).getD (Config.draw32 (s.draws + i))) else none :=
  Memory.read_tabulate _ _ _

/-- `fill16` keeps the canonical form of every memory. -/
theorem State.fill16_wf (s : State) (sp : Space16) (f : Nat → Option S16)
    (h : ∀ sp', Memory.wf sp'.size (s.mem sp') = true) (sp' : Space16) :
    Memory.wf sp'.size ((s.fill16 sp f).mem sp') = true := by
  rw [State.fill16_mem]
  by_cases hs : sp' = sp
  · subst hs; simp [Memory.wf_tabulate]
  · simp [hs, h sp']

/-- `fillProb` leaves PROB in the canonical form. -/
theorem State.fillProb_wf (s : State) (f : Nat → Option F32) :
    Memory.wf numClasses (s.fillProb f).prob = true := by
  simp only [State.fillProb]
  exact Memory.wf_tabulate _ _

/-- `write16` at a legal index keeps the canonical form of every memory. -/
theorem State.write16_wf (s : State) {sp : Space16} {i : Nat} (v : S16) (hi : i < sp.size)
    (h : ∀ sp', Memory.wf sp'.size (s.mem sp') = true) (sp' : Space16) :
    Memory.wf sp'.size ((s.write16 sp i v).mem sp') = true := by
  rw [State.write16, State.setMem_mem]
  by_cases hs : sp' = sp
  · subst hs; simp [Memory.wf_write v (h sp') hi]
  · simp [hs, h sp']

/-- `writeProb` at a legal index keeps the canonical form of PROB. -/
theorem State.writeProb_wf (s : State) {i : Nat} (v : F32) (hi : i < numClasses)
    (h : Memory.wf numClasses s.prob = true) : Memory.wf numClasses (s.writeProb i v).prob = true :=
  Memory.wf_write v h hi

/-- After reset every memory has the canonical form. -/
theorem State.reset_mem_wf (sp : Space16) : Memory.wf sp.size (State.reset.mem sp) = true := by
  cases sp <;> rfl

theorem State.reset_prob_wf : Memory.wf numClasses State.reset.prob = true := rfl

/-! ### Gathering operands -/

/-- `allSome` of entries that all hold a value. -/
theorem allSome_map_some {α : Type} (xs : List α) : allSome (xs.map some) = some xs := by
  induction xs with
  | nil => rfl
  | cons x xs ih => simp [allSome, ih]

/-- Where `allSome` answers, every entry holds a value. -/
theorem map_some_of_allSome {α : Type} {l : List (Option α)} {xs : List α}
    (h : allSome l = some xs) : l = xs.map some := by
  induction l generalizing xs with
  | nil => simp only [allSome, Option.some.injEq] at h; subst h; rfl
  | cons o l ih =>
    cases o with
    | none => simp [allSome] at h
    | some a =>
      cases h2 : allSome l with
      | none => simp [allSome, h2] at h
      | some as =>
        simp only [allSome, h2, Option.some.injEq] at h
        subst h
        simp [ih h2]

/-- `allSome` answers the values exactly where every entry has one. -/
theorem allSome_eq_some {α : Type} (l : List (Option α)) (xs : List α) :
    allSome l = some xs ↔ l = xs.map some :=
  ⟨map_some_of_allSome, fun h => h ▸ allSome_map_some xs⟩

/-- `reduceOperands` where every operand holds a value. -/
theorem reduceOperands_some (F : Nat) (b : S16) (ps : List (S16 × S16)) (r : Bool) :
    reduceOperands F (some b) (ps.map some) r = some (reduce F b ps r) := by
  simp [reduceOperands, allSome_map_some]

/-! ### The meanings, one equation each -/

theorem exec_nop (s : State) : exec .nop s = .next s.complete := rfl
theorem exec_conv1 (s : State) : exec .conv1 s = .next (conv1Body s).complete := rfl
theorem exec_pool1 (s : State) : exec .pool1 s = .next (pool1Body s).complete := rfl
theorem exec_conv2 (s : State) : exec .conv2 s = .next (conv2Body s).complete := rfl
theorem exec_pool2 (s : State) : exec .pool2 s = .next (pool2Body s).complete := rfl
theorem exec_fc1 (s : State) : exec .fc1 s = .next (fc1Body s).complete := rfl
theorem exec_fc2 (s : State) : exec .fc2 s = .next (fc2Body s).complete := rfl
theorem exec_softmax (s : State) : exec .softmax s = .next (softmaxBody s).complete := rfl
theorem exec_argmax (s : State) : exec .argmax s = .next (argmaxBody s).complete := rfl
theorem exec_quant (s : State) : exec .quant s = .next (quantBody s).complete := rfl
theorem exec_dequant (s : State) : exec .dequant s = .next (dequantBody s).complete := rfl

/-- Everything FORWARD can do at its stages: a body, then the end of that stage. -/
theorem exec_forward {s : State} (h : isForwardStage s.status.stage = true) :
    ∃ t, stageBody s.status.stage s = some t ∧ exec .forward s = .next (t.endStage 7#4) := by
  have hb : ∃ t, stageBody s.status.stage s = some t := by
    revert h
    generalize s.status.stage = n
    revert n
    have key : ∀ n : StageId, isForwardStage n = true →
        n = 1#4 ∨ n = 2#4 ∨ n = 3#4 ∨ n = 4#4 ∨ n = 5#4 ∨ n = 6#4 ∨ n = 7#4 := by decide
    intro n hn
    rcases key n hn with rfl | rfl | rfl | rfl | rfl | rfl | rfl <;> exact ⟨_, rfl⟩
  obtain ⟨t, ht⟩ := hb
  exact ⟨t, ht, by simp [exec, execForward, h, ht]⟩

/-! ### The step, by what stands first in `events` -/

theorem step_nil {s : State} (h : s.events = []) : step s = coreTurn s := by simp [step, h]

theorem step_core {s : State} {es : List Event} (h : s.events = .core :: es) :
    step s = coreTurn { s with events := es } := by simp [step, h]

theorem step_host {s : State} {es : List Event} {m : HostMove} (h : s.events = .host m :: es) :
    step s = hostMove m { s with events := es } := by simp [step, h]

/-- The core's turn while idle. -/
theorem coreTurn_idle {s : State} (h : s.status.busy = false) : coreTurn s = .next s := by
  simp [coreTurn, h]

/-- An address resolves to an element below its space's element count. -/
theorem resolve_bound {a : Addr} {l : Location} (h : resolve a = some l) :
    match l with
    | .mem16 sp i => i < sp.size
    | .prob i => i < numClasses
    | .csr _ => True := by
  unfold resolve at h
  split at h
  · split at h
    · cases h; assumption
    · cases h
  · split at h
    · split at h
      · cases h; trivial
      · cases h
    · split at h
      · split at h
        · cases h; assumption
        · cases h
      · cases h

end Sys2Proof.Machine
end

