-- ==== Sys2Proof/Laws/PerInstr.lean ====
section
/-! SUPPORT. Facts about every command as syntax, one lemma for each constructor. -/

namespace Sys2Proof.Laws

/-- The word of the command is legal, its bits 31:8 are zero, and its stages are ids of existing stages in
order: one stage for every command but FORWARD (R80, R83, R88). -/
def CommandWord.Statement (i : Instr) : Prop :=
  i.wf = true ∧ zeroField (encode i) = 0#24 ∧ i.firstStage ≤ i.lastStage ∧ i.lastStage ≤ 10#4 ∧
    (i ≠ .forward → i.firstStage = i.lastStage ∧ i.opcode = i.firstStage.setWidth 8)

theorem CommandWord.nop : CommandWord.Statement .nop := by unfold CommandWord.Statement; decide

theorem CommandWord.conv1 : CommandWord.Statement .conv1 := by unfold CommandWord.Statement; decide

theorem CommandWord.pool1 : CommandWord.Statement .pool1 := by unfold CommandWord.Statement; decide

theorem CommandWord.conv2 : CommandWord.Statement .conv2 := by unfold CommandWord.Statement; decide

theorem CommandWord.pool2 : CommandWord.Statement .pool2 := by unfold CommandWord.Statement; decide

theorem CommandWord.fc1 : CommandWord.Statement .fc1 := by unfold CommandWord.Statement; decide

theorem CommandWord.fc2 : CommandWord.Statement .fc2 := by unfold CommandWord.Statement; decide

theorem CommandWord.softmax : CommandWord.Statement .softmax := by unfold CommandWord.Statement; decide

theorem CommandWord.argmax : CommandWord.Statement .argmax := by unfold CommandWord.Statement; decide

theorem CommandWord.quant : CommandWord.Statement .quant := by unfold CommandWord.Statement; decide

theorem CommandWord.dequant : CommandWord.Statement .dequant := by unfold CommandWord.Statement; decide

theorem CommandWord.forward : CommandWord.Statement .forward := by unfold CommandWord.Statement; decide

end Sys2Proof.Laws
end

