-- ==== Sys2Proof/Laws/Stages.lean ====
section
/-! SUPPORT. The stage bodies: what each leaves in every field. -/

namespace Sys2Proof.Machine

/-! ### conv1Body -/

@[simp] theorem conv1Body_cfg (s : State) : (conv1Body s).cfg = s.cfg := by simp [conv1Body]
@[simp] theorem conv1Body_status (s : State) : (conv1Body s).status = s.status := by simp [conv1Body]
@[simp] theorem conv1Body_qIn (s : State) : (conv1Body s).qIn = s.qIn := by simp [conv1Body]
@[simp] theorem conv1Body_qOut (s : State) : (conv1Body s).qOut = s.qOut := by simp [conv1Body]
@[simp] theorem conv1Body_dqIn (s : State) : (conv1Body s).dqIn = s.dqIn := by simp [conv1Body]
@[simp] theorem conv1Body_dqOut (s : State) : (conv1Body s).dqOut = s.dqOut := by simp [conv1Body]
@[simp] theorem conv1Body_amax (s : State) : (conv1Body s).amax = s.amax := by simp [conv1Body]
@[simp] theorem conv1Body_events (s : State) : (conv1Body s).events = s.events := by simp [conv1Body]
@[simp] theorem conv1Body_rdata (s : State) : (conv1Body s).rdata = s.rdata := by simp [conv1Body]
@[simp] theorem conv1Body_prob (s : State) : (conv1Body s).prob = s.prob := by simp [conv1Body]
@[simp] theorem conv1Body_readProb (s : State) (i : Nat) : (conv1Body s).readProb i = s.readProb i := by
  simp [conv1Body]
@[simp] theorem conv1Body_draws (s : State) : (conv1Body s).draws = s.draws + Space16.size .c1 := rfl

/-- What the stage leaves in the 16-bit spaces: its own output, element by element, and the rest as before. -/
theorem conv1Body_read16 (s : State) (sp : Space16) (i : Nat) :
    (conv1Body s).read16 sp i =
      if sp = .c1 then
        (if i < Space16.size .c1 then
          some ((conv2dAt s.cfg.F.val conv1Shape (s.read16 .img) (s.read16 .wC1) (s.read16 .bC1) i).getD (Config.draw16 (s.draws + i)))
        else none)
      else s.read16 sp i := State.read16_fill16 s .c1 sp _ i

theorem conv1Body_mem_other (s : State) {sp : Space16} (h : sp ≠ .c1) : (conv1Body s).mem sp = s.mem sp := by
  simp [conv1Body, State.fill16_mem, h]

theorem conv1Body_wf (s : State) (h : ∀ sp, Memory.wf sp.size (s.mem sp) = true) (sp : Space16) :
    Memory.wf sp.size ((conv1Body s).mem sp) = true := State.fill16_wf s .c1 _ h sp


/-! ### pool1Body -/

@[simp] theorem pool1Body_cfg (s : State) : (pool1Body s).cfg = s.cfg := by simp [pool1Body]
@[simp] theorem pool1Body_status (s : State) : (pool1Body s).status = s.status := by simp [pool1Body]
@[simp] theorem pool1Body_qIn (s : State) : (pool1Body s).qIn = s.qIn := by simp [pool1Body]
@[simp] theorem pool1Body_qOut (s : State) : (pool1Body s).qOut = s.qOut := by simp [pool1Body]
@[simp] theorem pool1Body_dqIn (s : State) : (pool1Body s).dqIn = s.dqIn := by simp [pool1Body]
@[simp] theorem pool1Body_dqOut (s : State) : (pool1Body s).dqOut = s.dqOut := by simp [pool1Body]
@[simp] theorem pool1Body_amax (s : State) : (pool1Body s).amax = s.amax := by simp [pool1Body]
@[simp] theorem pool1Body_events (s : State) : (pool1Body s).events = s.events := by simp [pool1Body]
@[simp] theorem pool1Body_rdata (s : State) : (pool1Body s).rdata = s.rdata := by simp [pool1Body]
@[simp] theorem pool1Body_prob (s : State) : (pool1Body s).prob = s.prob := by simp [pool1Body]
@[simp] theorem pool1Body_readProb (s : State) (i : Nat) : (pool1Body s).readProb i = s.readProb i := by
  simp [pool1Body]
@[simp] theorem pool1Body_draws (s : State) : (pool1Body s).draws = s.draws + Space16.size .p1 := rfl

/-- What the stage leaves in the 16-bit spaces: its own output, element by element, and the rest as before. -/
theorem pool1Body_read16 (s : State) (sp : Space16) (i : Nat) :
    (pool1Body s).read16 sp i =
      if sp = .p1 then
        (if i < Space16.size .p1 then
          some ((maxpool2At pool1Shape (s.read16 .c1) i).getD (Config.draw16 (s.draws + i)))
        else none)
      else s.read16 sp i := State.read16_fill16 s .p1 sp _ i

theorem pool1Body_mem_other (s : State) {sp : Space16} (h : sp ≠ .p1) : (pool1Body s).mem sp = s.mem sp := by
  simp [pool1Body, State.fill16_mem, h]

theorem pool1Body_wf (s : State) (h : ∀ sp, Memory.wf sp.size (s.mem sp) = true) (sp : Space16) :
    Memory.wf sp.size ((pool1Body s).mem sp) = true := State.fill16_wf s .p1 _ h sp


/-! ### conv2Body -/

@[simp] theorem conv2Body_cfg (s : State) : (conv2Body s).cfg = s.cfg := by simp [conv2Body]
@[simp] theorem conv2Body_status (s : State) : (conv2Body s).status = s.status := by simp [conv2Body]
@[simp] theorem conv2Body_qIn (s : State) : (conv2Body s).qIn = s.qIn := by simp [conv2Body]
@[simp] theorem conv2Body_qOut (s : State) : (conv2Body s).qOut = s.qOut := by simp [conv2Body]
@[simp] theorem conv2Body_dqIn (s : State) : (conv2Body s).dqIn = s.dqIn := by simp [conv2Body]
@[simp] theorem conv2Body_dqOut (s : State) : (conv2Body s).dqOut = s.dqOut := by simp [conv2Body]
@[simp] theorem conv2Body_amax (s : State) : (conv2Body s).amax = s.amax := by simp [conv2Body]
@[simp] theorem conv2Body_events (s : State) : (conv2Body s).events = s.events := by simp [conv2Body]
@[simp] theorem conv2Body_rdata (s : State) : (conv2Body s).rdata = s.rdata := by simp [conv2Body]
@[simp] theorem conv2Body_prob (s : State) : (conv2Body s).prob = s.prob := by simp [conv2Body]
@[simp] theorem conv2Body_readProb (s : State) (i : Nat) : (conv2Body s).readProb i = s.readProb i := by
  simp [conv2Body]
@[simp] theorem conv2Body_draws (s : State) : (conv2Body s).draws = s.draws + Space16.size .c2 := rfl

/-- What the stage leaves in the 16-bit spaces: its own output, element by element, and the rest as before. -/
theorem conv2Body_read16 (s : State) (sp : Space16) (i : Nat) :
    (conv2Body s).read16 sp i =
      if sp = .c2 then
        (if i < Space16.size .c2 then
          some ((conv2dAt s.cfg.F.val conv2Shape (s.read16 .p1) (s.read16 .wC2) (s.read16 .bC2) i).getD (Config.draw16 (s.draws + i)))
        else none)
      else s.read16 sp i := State.read16_fill16 s .c2 sp _ i

theorem conv2Body_mem_other (s : State) {sp : Space16} (h : sp ≠ .c2) : (conv2Body s).mem sp = s.mem sp := by
  simp [conv2Body, State.fill16_mem, h]

theorem conv2Body_wf (s : State) (h : ∀ sp, Memory.wf sp.size (s.mem sp) = true) (sp : Space16) :
    Memory.wf sp.size ((conv2Body s).mem sp) = true := State.fill16_wf s .c2 _ h sp


/-! ### pool2Body -/

@[simp] theorem pool2Body_cfg (s : State) : (pool2Body s).cfg = s.cfg := by simp [pool2Body]
@[simp] theorem pool2Body_status (s : State) : (pool2Body s).status = s.status := by simp [pool2Body]
@[simp] theorem pool2Body_qIn (s : State) : (pool2Body s).qIn = s.qIn := by simp [pool2Body]
@[simp] theorem pool2Body_qOut (s : State) : (pool2Body s).qOut = s.qOut := by simp [pool2Body]
@[simp] theorem pool2Body_dqIn (s : State) : (pool2Body s).dqIn = s.dqIn := by simp [pool2Body]
@[simp] theorem pool2Body_dqOut (s : State) : (pool2Body s).dqOut = s.dqOut := by simp [pool2Body]
@[simp] theorem pool2Body_amax (s : State) : (pool2Body s).amax = s.amax := by simp [pool2Body]
@[simp] theorem pool2Body_events (s : State) : (pool2Body s).events = s.events := by simp [pool2Body]
@[simp] theorem pool2Body_rdata (s : State) : (pool2Body s).rdata = s.rdata := by simp [pool2Body]
@[simp] theorem pool2Body_prob (s : State) : (pool2Body s).prob = s.prob := by simp [pool2Body]
@[simp] theorem pool2Body_readProb (s : State) (i : Nat) : (pool2Body s).readProb i = s.readProb i := by
  simp [pool2Body]
@[simp] theorem pool2Body_draws (s : State) : (pool2Body s).draws = s.draws + Space16.size .p2 := rfl

/-- What the stage leaves in the 16-bit spaces: its own output, element by element, and the rest as before. -/
theorem pool2Body_read16 (s : State) (sp : Space16) (i : Nat) :
    (pool2Body s).read16 sp i =
      if sp = .p2 then
        (if i < Space16.size .p2 then
          some ((maxpool2At pool2Shape (s.read16 .c2) i).getD (Config.draw16 (s.draws + i)))
        else none)
      else s.read16 sp i := State.read16_fill16 s .p2 sp _ i

theorem pool2Body_mem_other (s : State) {sp : Space16} (h : sp ≠ .p2) : (pool2Body s).mem sp = s.mem sp := by
  simp [pool2Body, State.fill16_mem, h]

theorem pool2Body_wf (s : State) (h : ∀ sp, Memory.wf sp.size (s.mem sp) = true) (sp : Space16) :
    Memory.wf sp.size ((pool2Body s).mem sp) = true := State.fill16_wf s .p2 _ h sp


/-! ### fc1Body -/

@[simp] theorem fc1Body_cfg (s : State) : (fc1Body s).cfg = s.cfg := by simp [fc1Body]
@[simp] theorem fc1Body_status (s : State) : (fc1Body s).status = s.status := by simp [fc1Body]
@[simp] theorem fc1Body_qIn (s : State) : (fc1Body s).qIn = s.qIn := by simp [fc1Body]
@[simp] theorem fc1Body_qOut (s : State) : (fc1Body s).qOut = s.qOut := by simp [fc1Body]
@[simp] theorem fc1Body_dqIn (s : State) : (fc1Body s).dqIn = s.dqIn := by simp [fc1Body]
@[simp] theorem fc1Body_dqOut (s : State) : (fc1Body s).dqOut = s.dqOut := by simp [fc1Body]
@[simp] theorem fc1Body_amax (s : State) : (fc1Body s).amax = s.amax := by simp [fc1Body]
@[simp] theorem fc1Body_events (s : State) : (fc1Body s).events = s.events := by simp [fc1Body]
@[simp] theorem fc1Body_rdata (s : State) : (fc1Body s).rdata = s.rdata := by simp [fc1Body]
@[simp] theorem fc1Body_prob (s : State) : (fc1Body s).prob = s.prob := by simp [fc1Body]
@[simp] theorem fc1Body_readProb (s : State) (i : Nat) : (fc1Body s).readProb i = s.readProb i := by
  simp [fc1Body]
@[simp] theorem fc1Body_draws (s : State) : (fc1Body s).draws = s.draws + Space16.size .h1 := rfl

/-- What the stage leaves in the 16-bit spaces: its own output, element by element, and the rest as before. -/
theorem fc1Body_read16 (s : State) (sp : Space16) (i : Nat) :
    (fc1Body s).read16 sp i =
      if sp = .h1 then
        (if i < Space16.size .h1 then
          some ((dense s.cfg.F.val fc1Shape (s.read16 .p2) (s.read16 .wF1) (s.read16 .bF1) true i).getD (Config.draw16 (s.draws + i)))
        else none)
      else s.read16 sp i := State.read16_fill16 s .h1 sp _ i

theorem fc1Body_mem_other (s : State) {sp : Space16} (h : sp ≠ .h1) : (fc1Body s).mem sp = s.mem sp := by
  simp [fc1Body, State.fill16_mem, h]

theorem fc1Body_wf (s : State) (h : ∀ sp, Memory.wf sp.size (s.mem sp) = true) (sp : Space16) :
    Memory.wf sp.size ((fc1Body s).mem sp) = true := State.fill16_wf s .h1 _ h sp


/-! ### fc2Body -/

@[simp] theorem fc2Body_cfg (s : State) : (fc2Body s).cfg = s.cfg := by simp [fc2Body]
@[simp] theorem fc2Body_status (s : State) : (fc2Body s).status = s.status := by simp [fc2Body]
@[simp] theorem fc2Body_qIn (s : State) : (fc2Body s).qIn = s.qIn := by simp [fc2Body]
@[simp] theorem fc2Body_qOut (s : State) : (fc2Body s).qOut = s.qOut := by simp [fc2Body]
@[simp] theorem fc2Body_dqIn (s : State) : (fc2Body s).dqIn = s.dqIn := by simp [fc2Body]
@[simp] theorem fc2Body_dqOut (s : State) : (fc2Body s).dqOut = s.dqOut := by simp [fc2Body]
@[simp] theorem fc2Body_amax (s : State) : (fc2Body s).amax = s.amax := by simp [fc2Body]
@[simp] theorem fc2Body_events (s : State) : (fc2Body s).events = s.events := by simp [fc2Body]
@[simp] theorem fc2Body_rdata (s : State) : (fc2Body s).rdata = s.rdata := by simp [fc2Body]
@[simp] theorem fc2Body_prob (s : State) : (fc2Body s).prob = s.prob := by simp [fc2Body]
@[simp] theorem fc2Body_readProb (s : State) (i : Nat) : (fc2Body s).readProb i = s.readProb i := by
  simp [fc2Body]
@[simp] theorem fc2Body_draws (s : State) : (fc2Body s).draws = s.draws + Space16.size .logit := rfl

/-- What the stage leaves in the 16-bit spaces: its own output, element by element, and the rest as before. -/
theorem fc2Body_read16 (s : State) (sp : Space16) (i : Nat) :
    (fc2Body s).read16 sp i =
      if sp = .logit then
        (if i < Space16.size .logit then
          some ((dense s.cfg.F.val fc2Shape (s.read16 .h1) (s.read16 .wF2) (s.read16 .bF2) false i).getD (Config.draw16 (s.draws + i)))
        else none)
      else s.read16 sp i := State.read16_fill16 s .logit sp _ i

theorem fc2Body_mem_other (s : State) {sp : Space16} (h : sp ≠ .logit) : (fc2Body s).mem sp = s.mem sp := by
  simp [fc2Body, State.fill16_mem, h]

theorem fc2Body_wf (s : State) (h : ∀ sp, Memory.wf sp.size (s.mem sp) = true) (sp : Space16) :
    Memory.wf sp.size ((fc2Body s).mem sp) = true := State.fill16_wf s .logit _ h sp


/-! ### softmaxBody -/

@[simp] theorem softmaxBody_cfg (s : State) : (softmaxBody s).cfg = s.cfg := State.fillProb_cfg s _
@[simp] theorem softmaxBody_status (s : State) : (softmaxBody s).status = s.status := State.fillProb_status s _
@[simp] theorem softmaxBody_qIn (s : State) : (softmaxBody s).qIn = s.qIn := State.fillProb_qIn s _
@[simp] theorem softmaxBody_qOut (s : State) : (softmaxBody s).qOut = s.qOut := State.fillProb_qOut s _
@[simp] theorem softmaxBody_dqIn (s : State) : (softmaxBody s).dqIn = s.dqIn := State.fillProb_dqIn s _
@[simp] theorem softmaxBody_dqOut (s : State) : (softmaxBody s).dqOut = s.dqOut := State.fillProb_dqOut s _
@[simp] theorem softmaxBody_amax (s : State) : (softmaxBody s).amax = s.amax := State.fillProb_amax s _
@[simp] theorem softmaxBody_events (s : State) : (softmaxBody s).events = s.events := State.fillProb_events s _
@[simp] theorem softmaxBody_rdata (s : State) : (softmaxBody s).rdata = s.rdata := State.fillProb_rdata s _
@[simp] theorem softmaxBody_mem (s : State) (sp : Space16) : (softmaxBody s).mem sp = s.mem sp :=
  State.fillProb_mem s _ sp
@[simp] theorem softmaxBody_read16 (s : State) (sp : Space16) (i : Nat) :
    (softmaxBody s).read16 sp i = s.read16 sp i := State.fillProb_read16 s _ sp i
@[simp] theorem softmaxBody_draws (s : State) : (softmaxBody s).draws = s.draws + numClasses := State.fillProb_draws s _

/-! ### argmaxBody -/

@[simp] theorem argmaxBody_cfg (s : State) : (argmaxBody s).cfg = s.cfg := State.setAmax_cfg s _
@[simp] theorem argmaxBody_status (s : State) : (argmaxBody s).status = s.status := State.setAmax_status s _
@[simp] theorem argmaxBody_qIn (s : State) : (argmaxBody s).qIn = s.qIn := State.setAmax_qIn s _
@[simp] theorem argmaxBody_qOut (s : State) : (argmaxBody s).qOut = s.qOut := State.setAmax_qOut s _
@[simp] theorem argmaxBody_dqIn (s : State) : (argmaxBody s).dqIn = s.dqIn := State.setAmax_dqIn s _
@[simp] theorem argmaxBody_dqOut (s : State) : (argmaxBody s).dqOut = s.dqOut := State.setAmax_dqOut s _
@[simp] theorem argmaxBody_events (s : State) : (argmaxBody s).events = s.events := State.setAmax_events s _
@[simp] theorem argmaxBody_rdata (s : State) : (argmaxBody s).rdata = s.rdata := State.setAmax_rdata s _
@[simp] theorem argmaxBody_prob (s : State) : (argmaxBody s).prob = s.prob := State.setAmax_prob s _
@[simp] theorem argmaxBody_mem (s : State) (sp : Space16) : (argmaxBody s).mem sp = s.mem sp :=
  State.setAmax_mem s _ sp
@[simp] theorem argmaxBody_read16 (s : State) (sp : Space16) (i : Nat) :
    (argmaxBody s).read16 sp i = s.read16 sp i := State.setAmax_read16 s _ sp i
@[simp] theorem argmaxBody_readProb (s : State) (i : Nat) : (argmaxBody s).readProb i = s.readProb i :=
  State.setAmax_readProb s _ i
@[simp] theorem argmaxBody_draws (s : State) : (argmaxBody s).draws = s.draws + 1 := State.setAmax_draws s _

/-! ### quantBody -/

@[simp] theorem quantBody_cfg (s : State) : (quantBody s).cfg = s.cfg := State.setQOut_cfg s _
@[simp] theorem quantBody_status (s : State) : (quantBody s).status = s.status := State.setQOut_status s _
@[simp] theorem quantBody_qIn (s : State) : (quantBody s).qIn = s.qIn := State.setQOut_qIn s _
@[simp] theorem quantBody_dqIn (s : State) : (quantBody s).dqIn = s.dqIn := State.setQOut_dqIn s _
@[simp] theorem quantBody_dqOut (s : State) : (quantBody s).dqOut = s.dqOut := State.setQOut_dqOut s _
@[simp] theorem quantBody_amax (s : State) : (quantBody s).amax = s.amax := State.setQOut_amax s _
@[simp] theorem quantBody_events (s : State) : (quantBody s).events = s.events := State.setQOut_events s _
@[simp] theorem quantBody_rdata (s : State) : (quantBody s).rdata = s.rdata := State.setQOut_rdata s _
@[simp] theorem quantBody_prob (s : State) : (quantBody s).prob = s.prob := State.setQOut_prob s _
@[simp] theorem quantBody_mem (s : State) (sp : Space16) : (quantBody s).mem sp = s.mem sp :=
  State.setQOut_mem s _ sp
@[simp] theorem quantBody_read16 (s : State) (sp : Space16) (i : Nat) :
    (quantBody s).read16 sp i = s.read16 sp i := State.setQOut_read16 s _ sp i
@[simp] theorem quantBody_readProb (s : State) (i : Nat) : (quantBody s).readProb i = s.readProb i :=
  State.setQOut_readProb s _ i
@[simp] theorem quantBody_draws (s : State) : (quantBody s).draws = s.draws + 1 := State.setQOut_draws s _

/-! ### dequantBody -/

@[simp] theorem dequantBody_cfg (s : State) : (dequantBody s).cfg = s.cfg := State.setDqOut_cfg s _
@[simp] theorem dequantBody_status (s : State) : (dequantBody s).status = s.status := State.setDqOut_status s _
@[simp] theorem dequantBody_qIn (s : State) : (dequantBody s).qIn = s.qIn := State.setDqOut_qIn s _
@[simp] theorem dequantBody_qOut (s : State) : (dequantBody s).qOut = s.qOut := State.setDqOut_qOut s _
@[simp] theorem dequantBody_dqIn (s : State) : (dequantBody s).dqIn = s.dqIn := State.setDqOut_dqIn s _
@[simp] theorem dequantBody_amax (s : State) : (dequantBody s).amax = s.amax := State.setDqOut_amax s _
@[simp] theorem dequantBody_events (s : State) : (dequantBody s).events = s.events := State.setDqOut_events s _
@[simp] theorem dequantBody_rdata (s : State) : (dequantBody s).rdata = s.rdata := State.setDqOut_rdata s _
@[simp] theorem dequantBody_prob (s : State) : (dequantBody s).prob = s.prob := State.setDqOut_prob s _
@[simp] theorem dequantBody_mem (s : State) (sp : Space16) : (dequantBody s).mem sp = s.mem sp :=
  State.setDqOut_mem s _ sp
@[simp] theorem dequantBody_read16 (s : State) (sp : Space16) (i : Nat) :
    (dequantBody s).read16 sp i = s.read16 sp i := State.setDqOut_read16 s _ sp i
@[simp] theorem dequantBody_readProb (s : State) (i : Nat) : (dequantBody s).readProb i = s.readProb i :=
  State.setDqOut_readProb s _ i
@[simp] theorem dequantBody_draws (s : State) : (dequantBody s).draws = s.draws := State.setDqOut_draws s _

/-- What SOFTMAX leaves in PROB. -/
theorem softmaxBody_readProb (s : State) (i : Nat) :
    (softmaxBody s).readProb i =
      if i < numClasses then
        some ((match s.softmaxResult with
          | some P => some (P.getD i 0#32)
          | none => none).getD (Config.draw32 (s.draws + i)))
      else none := State.readProb_fillProb s _ i

theorem softmaxBody_wf (s : State) : Memory.wf numClasses (softmaxBody s).prob = true :=
  State.fillProb_wf s _

@[simp] theorem quantBody_qOut (s : State) :
    (quantBody s).qOut =
      (quantize s.cfg.quantTie s.cfg.F.val s.qIn).getD (Config.draw16 s.draws) :=
  State.setQOut_qOut s _
@[simp] theorem dequantBody_dqOut (s : State) :
    (dequantBody s).dqOut = dequantize s.cfg.F.val s.dqIn :=
  State.setDqOut_dqOut s _

/-! ### A stage does not look at STATUS, at what the host is to do or at what it has read -/

/-- The state with those three replaced. -/
def State.withShell (s : State) (t : Status) (es : List Event) (v : Element) : State :=
  { s with status := t, events := es, rdata := v }

@[simp] theorem State.withShell_read16 (s : State) (t : Status) (es : List Event) (v : Element) :
    (s.withShell t es v).read16 = s.read16 := by
  funext sp i; cases sp <;> rfl
@[simp] theorem State.withShell_readProb (s : State) (t : Status) (es : List Event) (v : Element) :
    (s.withShell t es v).readProb = s.readProb := rfl
@[simp] theorem State.withShell_cfg (s : State) (t : Status) (es : List Event) (v : Element) :
    (s.withShell t es v).cfg = s.cfg := rfl
@[simp] theorem State.withShell_status (s : State) (t : Status) (es : List Event) (v : Element) :
    (s.withShell t es v).status = t := rfl
@[simp] theorem State.withShell_events (s : State) (t : Status) (es : List Event) (v : Element) :
    (s.withShell t es v).events = es := rfl
@[simp] theorem State.withShell_rdata (s : State) (t : Status) (es : List Event) (v : Element) :
    (s.withShell t es v).rdata = v := rfl
@[simp] theorem State.withShell_withShell (s : State) (t t' : Status) (es es' : List Event)
    (v v' : Element) : (s.withShell t es v).withShell t' es' v' = s.withShell t' es' v' := rfl
theorem State.withShell_self (s : State) : s.withShell s.status s.events s.rdata = s := rfl
theorem State.complete_eq_withShell (s : State) :
    s.complete = s.withShell s.status.complete s.events s.rdata := rfl
theorem State.endStage_eq_withShell (s : State) (n : StageId) :
    s.endStage n = s.withShell (s.status.endStage n) s.events s.rdata := rfl
theorem State.accept_eq_withShell (s : State) (i : Instr) :
    s.accept i = s.withShell (s.status.accept i) s.events s.rdata := rfl

theorem State.fill16_withShell (s : State) (t : Status) (es : List Event) (v : Element)
    (sp : Space16) (f : Nat → Option S16) :
    (s.withShell t es v).fill16 sp f = (s.fill16 sp f).withShell t es v := by
  cases sp <;> simp only [State.fill16, State.setMem, State.withShell]

theorem State.fillProb_withShell (s : State) (t : Status) (es : List Event) (v : Element)
    (f : Nat → Option F32) :
    (s.withShell t es v).fillProb f = (s.fillProb f).withShell t es v := by
  simp only [State.fillProb, State.withShell]

@[simp] theorem State.withShell_softmaxResult (s : State) (t : Status) (es : List Event)
    (v : Element) : (s.withShell t es v).softmaxResult = s.softmaxResult := by
  simp [State.softmaxResult, State.logits]

@[simp] theorem State.withShell_probs (s : State) (t : Status) (es : List Event)
    (v : Element) : (s.withShell t es v).probs = s.probs := by
  simp [State.probs]

theorem conv1Body_withShell (s : State) (t : Status) (es : List Event) (v : Element) :
    conv1Body (s.withShell t es v) = (conv1Body s).withShell t es v := by
  simp [conv1Body, State.fill16_withShell]

theorem pool1Body_withShell (s : State) (t : Status) (es : List Event) (v : Element) :
    pool1Body (s.withShell t es v) = (pool1Body s).withShell t es v := by
  simp [pool1Body, State.fill16_withShell]

theorem conv2Body_withShell (s : State) (t : Status) (es : List Event) (v : Element) :
    conv2Body (s.withShell t es v) = (conv2Body s).withShell t es v := by
  simp [conv2Body, State.fill16_withShell]

theorem pool2Body_withShell (s : State) (t : Status) (es : List Event) (v : Element) :
    pool2Body (s.withShell t es v) = (pool2Body s).withShell t es v := by
  simp [pool2Body, State.fill16_withShell]

theorem fc1Body_withShell (s : State) (t : Status) (es : List Event) (v : Element) :
    fc1Body (s.withShell t es v) = (fc1Body s).withShell t es v := by
  simp [fc1Body, State.fill16_withShell]

theorem fc2Body_withShell (s : State) (t : Status) (es : List Event) (v : Element) :
    fc2Body (s.withShell t es v) = (fc2Body s).withShell t es v := by
  simp [fc2Body, State.fill16_withShell]

theorem softmaxBody_withShell (s : State) (t : Status) (es : List Event) (v : Element) :
    softmaxBody (s.withShell t es v) = (softmaxBody s).withShell t es v := by
  simp [softmaxBody, State.fillProb_withShell]

theorem argmaxBody_withShell (s : State) (t : Status) (es : List Event) (v : Element) :
    argmaxBody (s.withShell t es v) = (argmaxBody s).withShell t es v := by
  simp only [argmaxBody, State.withShell_probs]; rfl

theorem quantBody_withShell (s : State) (t : Status) (es : List Event) (v : Element) :
    quantBody (s.withShell t es v) = (quantBody s).withShell t es v := rfl

theorem dequantBody_withShell (s : State) (t : Status) (es : List Event) (v : Element) :
    dequantBody (s.withShell t es v) = (dequantBody s).withShell t es v := rfl

/-- The body that belongs to a stage id, as the table of R88 lists them. -/
inductive IsStage : StageId → (State → State) → Prop
  | nop : IsStage 0#4 id
  | conv1 : IsStage 1#4 conv1Body
  | pool1 : IsStage 2#4 pool1Body
  | conv2 : IsStage 3#4 conv2Body
  | pool2 : IsStage 4#4 pool2Body
  | fc1 : IsStage 5#4 fc1Body
  | fc2 : IsStage 6#4 fc2Body
  | softmax : IsStage 7#4 softmaxBody
  | argmax : IsStage 8#4 argmaxBody
  | quant : IsStage 9#4 quantBody
  | dequant : IsStage 10#4 dequantBody

/-- What `stageBody` answers for an id that has a body. -/
theorem IsStage.stageBody_eq {n : StageId} {f : State → State} (h : IsStage n f) (s : State) :
    stageBody n s = some (f s) := by
  cases h <;> rfl

/-- All that `stageBody` can answer: the body of one of the eleven stages. -/
theorem stageBody_cases {n : StageId} {s b : State} (h : stageBody n s = some b) :
    ∃ f, IsStage n f ∧ b = f s := by
  have key : ∀ k : StageId, (∃ f, IsStage k f) ∨ ∀ s, stageBody k s = none := by
    intro k
    by_cases hk : k.toNat ≤ 10
    · left
      have hb : k = BitVec.ofNat 4 k.toNat := by simp
      generalize k.toNat = m at hk hb
      subst hb
      interval_cases m
      exacts [⟨_, .nop⟩, ⟨_, .conv1⟩, ⟨_, .pool1⟩, ⟨_, .conv2⟩, ⟨_, .pool2⟩, ⟨_, .fc1⟩, ⟨_, .fc2⟩,
        ⟨_, .softmax⟩, ⟨_, .argmax⟩, ⟨_, .quant⟩, ⟨_, .dequant⟩]
    · right
      intro s
      unfold stageBody
      split <;> first | omega | rfl
  rcases key n with ⟨f, hf⟩ | hn
  · exact ⟨f, hf, (Option.some.inj ((hf.stageBody_eq s).symm.trans h)).symm⟩
  · exact absurd ((hn s).symm.trans h) (by simp)

/-- No stage body looks at STATUS, at the events or at the value read. -/
theorem IsStage.withShell {n : StageId} {f : State → State} (h : IsStage n f) (s : State) (t : Status)
    (es : List Event) (v : Element) : f (s.withShell t es v) = (f s).withShell t es v := by
  cases h with
  | nop => rfl
  | conv1 => exact conv1Body_withShell s t es v
  | pool1 => exact pool1Body_withShell s t es v
  | conv2 => exact conv2Body_withShell s t es v
  | pool2 => exact pool2Body_withShell s t es v
  | fc1 => exact fc1Body_withShell s t es v
  | fc2 => exact fc2Body_withShell s t es v
  | softmax => exact softmaxBody_withShell s t es v
  | argmax => exact argmaxBody_withShell s t es v
  | quant => exact quantBody_withShell s t es v
  | dequant => exact dequantBody_withShell s t es v

end Sys2Proof.Machine
end

