-- ==== Sys2Proof/Laws/Steps.lean ====
section
/-! SUPPORT. The steps a host program is made of, over a state whose memories and data registers stay in one place
(`State.withShell`), and runs step by step. -/

namespace Sys2Proof.Machine

/-- A run goes on from the state its first step answers. -/
theorem runSteps_next {n : Nat} {s t : State} (h : step s = .next t) :
    runSteps (n + 1) s = runSteps n t := by
  have h' : Sys2Proof.core.step s = .next t := h
  show Host.Core.run Sys2Proof.core (n + 1) s = _
  simp only [Host.Core.run, h']
  rfl

@[simp] theorem runSteps_zero (s : State) : runSteps 0 s = .next s := rfl

/-- Every stage body, on a state with another STATUS, other events and another value read. -/
theorem stageBody_withShell {n : StageId} {s b : State} (h : stageBody n s = some b) (t : Status)
    (es : List Event) (v : Element) : stageBody n (s.withShell t es v) = some (b.withShell t es v) := by
  obtain ⟨f, hf, rfl⟩ := stageBody_cases h
  rw [hf.stageBody_eq, hf.withShell]

/-- A single-stage command is the body of its stage, then the end of the command. -/
theorem exec_singleStage {i : Instr} (hi : i ≠ .forward) (s : State) :
    ∃ b, stageBody i.firstStage s = some b ∧ exec i s = .next b.complete := by
  cases i <;> first | exact absurd rfl hi | exact ⟨_, rfl, rfl⟩

/-- A command word written while idle. -/
theorem step_cmdWrite (s : State) (t : Status) (es : List Event) (v : Element) (i : Instr)
    (h : t.busy = false) :
    step (s.withShell t (.host (.write (Csr.addr .cmd) (.w32 (encode i))) :: es) v) =
      .next (s.withShell (t.accept i) es v) := by
  have hd : decode (encode i) = .ok i := by cases i <;> rfl
  have hr : resolve (Csr.addr .cmd) = some (.csr .cmd) := rfl
  rw [step_host rfl]
  simp only [hostMove, hr, State.hostWrite, State.hostWriteCsr, State.writeCmd]
  simp only [State.withShell, h, hd, State.accept]
  rfl

/-- A turn of the core while the command in CUR is `i`. -/
theorem step_coreBusy (s : State) (t : Status) (es : List Event) (v : Element) (i : Instr)
    (h : t.busy = true) (hc : t.cur = i.opcode) :
    step (s.withShell t (.core :: es) v) = exec i (s.withShell t es v) := by
  rw [step_core rfl]
  have hd : decode ((i.opcode).setWidth 32) = .ok i := by cases i <;> rfl
  simp only [coreTurn, State.commandWord, State.withShell, h, hc, hd, if_true]

/-- The core's one step of a single-stage command. -/
theorem step_singleStage {i : Instr} {s b : State} {t : Status} {es : List Event} {v : Element}
    (hi : i ≠ .forward) (hb : stageBody i.firstStage s = some b) (h : t.busy = true)
    (hc : t.cur = i.opcode) :
    step (s.withShell t (.core :: es) v) = .next (b.withShell t.complete es v) := by
  rw [step_coreBusy s t es v i h hc]
  obtain ⟨b', h1, h2⟩ := exec_singleStage hi (s.withShell t es v)
  rw [stageBody_withShell hb] at h1
  rw [h2, ← Option.some.inj h1]
  rfl

/-- The core's step of FORWARD at stage `n`. -/
theorem step_forwardStage {s b : State} {t : Status} {es : List Event} {v : Element} (n : StageId)
    (hn : isForwardStage n = true) (hs : t.stage = n) (hb : stageBody n s = some b)
    (h : t.busy = true) (hc : t.cur = Instr.opcode .forward) :
    step (s.withShell t (.core :: es) v) = .next (b.withShell (t.endStage 7#4) es v) := by
  rw [step_coreBusy s t es v .forward h hc]
  obtain ⟨b', h1, h2⟩ := exec_forward (s := s.withShell t es v)
    (by rw [State.withShell_status, hs]; exact hn)
  rw [State.withShell_status, hs, stageBody_withShell hb] at h1
  rw [h2, ← Option.some.inj h1]
  rfl

/-- A poll of WAIT that finds DONE 0: the core gets a turn and the host polls again. -/
theorem step_waitPolls (s : State) (t : Status) (es : List Event) (v : Element) (h : t.done = false) :
    step (s.withShell t (.host .wait :: es) v) =
      .next (s.withShell t (.core :: .host .wait :: es) (.w32 t.toWord)) := by
  rw [step_host rfl]
  simp only [hostMove, State.hostWait, State.withShell, h]
  simp only [State.hostReadCsr, Csr.owned, State.answer, State.csr]
  simp

/-- A poll of WAIT that finds DONE 1. -/
theorem step_waitEnds (s : State) (t : Status) (es : List Event) (v : Element) (h : t.done = true) :
    step (s.withShell t (.host .wait :: es) v) = .next (s.withShell t es (.w32 t.toWord)) := by
  rw [step_host rfl]
  simp only [hostMove, State.hostWait, State.withShell, h]
  simp only [State.hostReadCsr, Csr.owned, State.answer, State.csr]
  simp

/-! ### The range lines of the host notation -/

/-- A range line holds exactly the moves of its lines, for the indices from `a` to `b`. -/
@[simp] theorem mem_wrRange {line : Nat → List Event} {a b : Nat} {e : Event} :
    e ∈ wrRange line a b ↔ ∃ i : Nat, a ≤ i ∧ i ≤ b ∧ e ∈ line i := by
  simp only [wrRange, List.mem_flatMap, List.mem_range'_1, and_assoc]
  exact exists_congr fun i => by constructor <;> rintro ⟨h1, h2, h3⟩ <;> exact ⟨h1, by omega, h3⟩

/-- A range line is its first line and then the rest of the range. -/
theorem wrRange_cons (line : Nat → List Event) {a b : Nat} (h : a ≤ b) :
    wrRange line a b = line a ++ wrRange line (a + 1) b := by
  have hn : b + 1 - a = b + 1 - (a + 1) + 1 := by omega
  rw [wrRange, hn, List.range'_succ, List.flatMap_cons, wrRange]

/-- A range that is empty stands for no line. -/
theorem wrRange_nil (line : Nat → List Event) {a b : Nat} (h : b < a) : wrRange line a b = [] := by
  have hn : b + 1 - a = 0 := by omega
  rw [wrRange, hn]
  rfl

end Sys2Proof.Machine
end

