-- ==== Sys2Proof/Tests/Slice0.lean ====
section
/-! SUPPORT. Tests and witnesses. Every expected value comes from the spec: the vector of spec/95_test_vectors.md or the
rule that each comment names. The witnesses show, for each statement with hypotheses, concrete values that meet them. -/

namespace Sys2Proof.Tests

open Sys2Proof Sys2Proof.Machine

/-! ### The command words, bit by bit (R80, R81) -/

theorem test_decode_nop : decode 0b00000000000000000000000000000000#32 = .ok .nop := rfl
theorem test_decode_conv1 : decode 0b00000000000000000000000000000001#32 = .ok .conv1 := rfl
theorem test_decode_pool1 : decode 0b00000000000000000000000000000010#32 = .ok .pool1 := rfl
theorem test_decode_conv2 : decode 0b00000000000000000000000000000011#32 = .ok .conv2 := rfl
theorem test_decode_pool2 : decode 0b00000000000000000000000000000100#32 = .ok .pool2 := rfl
theorem test_decode_fc1 : decode 0b00000000000000000000000000000101#32 = .ok .fc1 := rfl
theorem test_decode_fc2 : decode 0b00000000000000000000000000000110#32 = .ok .fc2 := rfl
theorem test_decode_softmax : decode 0b00000000000000000000000000000111#32 = .ok .softmax := rfl
theorem test_decode_argmax : decode 0b00000000000000000000000000001000#32 = .ok .argmax := rfl
theorem test_decode_quant : decode 0b00000000000000000000000000001001#32 = .ok .quant := rfl
theorem test_decode_dequant : decode 0b00000000000000000000000000001010#32 = .ok .dequant := rfl
theorem test_decode_forward : decode 0b00000000000000000000000000001111#32 = .ok .forward := rfl

/-- Illegal words of the encoding vectors of spec/95_test_vectors.md, section 2. -/
theorem test_decode_reserved :
    decode 0x0000000B#32 = .error .reservedOpcode ∧ decode 0x0000000E#32 = .error .reservedOpcode ∧
    decode 0x00000010#32 = .error .reservedOpcode ∧ decode 0x000000FF#32 = .error .reservedOpcode :=
  ⟨rfl, rfl, rfl, rfl⟩

/-- The other illegal words of that section. -/
theorem test_decode_upper_bits :
    decode 0x00000100#32 = .error .upperBitsSet ∧ decode 0x8000000F#32 = .error .upperBitsSet ∧
    decode 0x0001000F#32 = .error .upperBitsSet ∧ decode 0xFFFFFFFF#32 = .error .upperBitsSet :=
  ⟨rfl, rfl, rfl, rfl⟩

/-! ### The checks of WellFormed, each with a term it refuses -/

theorem test_wf_word_reserved : legalWord 0x0000000C#32 = false := by decide
theorem test_wf_word_upper : legalWord 0x00000101#32 = false := by decide
theorem test_wf_word_legal : legalWord 0x0000000A#32 = true ∧ legalWord 0x0000000F#32 = true := by decide

/-- Space id 17 does not exist, and the last index of a space is its element count minus one (R54). -/
theorem test_wf_addr :
    Addr.wf { space := 17, index := 0 } = false ∧ Addr.wf { space := 0, index := 784 } = false ∧
    Addr.wf { space := 16, index := 8 } = false ∧ Addr.wf { space := 7, index := 10 } = false ∧
    Addr.wf { space := 0, index := 783 } = true ∧ Addr.wf { space := 12, index := 255999 } = true := by
  decide

/-- A 32-bit value does not fit LOGIT, and a 16-bit one does not fit PROB or CSR (R50). -/
theorem test_wf_fits :
    Element.fits (.w32 0#32) (Space16.addr .logit 0) = false ∧
    Element.fits (.s16 0#16) (probAddr 0) = false ∧ Element.fits (.s16 0#16) (Csr.addr .qIn) = false := by
  decide

theorem test_wf_move :
    HostMove.wf (.read { space := 17, index := 0 }) = false ∧
    HostMove.wf (.write (Space16.addr .img 784) (.s16 0#16)) = false ∧
    HostMove.wf (.write (Space16.addr .img 0) (.w32 0#32)) = false ∧
    HostMove.wf (.writeBack { space := 6, index := 10 }) = false := by decide

theorem test_wf_event : Event.wf (.host (.read { space := 99, index := 0 })) = false := by decide

/-- A kernel larger than its input, and an odd pooling extent (R123, R138). -/
theorem test_wf_shapes :
    ConvShape.wf { Z := 1, H := 4, W := 9, K := 1, KH := 5, KW := 5 } = false ∧
    PoolShape.wf { C := 1, H := 3, W := 2 } = false ∧ PoolShape.wf { C := 1, H := 2, W := 5 } = false ∧
    ConvShape.wf conv1Shape = true ∧ ConvShape.wf conv2Shape = true ∧
    PoolShape.wf pool1Shape = true ∧ PoolShape.wf pool2Shape = true := by decide

/-- An epsilon of 0 and one of 2.0 are outside (0, 1] (R7). -/
theorem test_wf_build :
    BuildConfig.wf { F := 8, quantTie := .away, softmaxEps := 0#32 } = false ∧
    BuildConfig.wf { F := 8, quantTie := .away, softmaxEps := 0x40000000#32 } = false ∧
    BuildConfig.wf .reference = true := by decide

/-! ### States for the tests -/

/-- The state after reset with all elements of the 16-bit spaces and of PROB written. -/
def written (v : S16) (p : F32) : State :=
  { State.reset with
    img := Memory.tabulate (Space16.size .img) fun _ => v
    c1 := Memory.tabulate (Space16.size .c1) fun _ => v
    p1 := Memory.tabulate (Space16.size .p1) fun _ => v
    c2 := Memory.tabulate (Space16.size .c2) fun _ => v
    p2 := Memory.tabulate (Space16.size .p2) fun _ => v
    h1 := Memory.tabulate (Space16.size .h1) fun _ => v
    logit := Memory.tabulate (Space16.size .logit) fun _ => v
    prob := Memory.tabulate numClasses fun _ => p
    wC1 := Memory.tabulate (Space16.size .wC1) fun _ => v
    bC1 := Memory.tabulate (Space16.size .bC1) fun _ => v
    wC2 := Memory.tabulate (Space16.size .wC2) fun _ => v
    bC2 := Memory.tabulate (Space16.size .bC2) fun _ => v
    wF1 := Memory.tabulate (Space16.size .wF1) fun _ => v
    bF1 := Memory.tabulate (Space16.size .bF1) fun _ => v
    wF2 := Memory.tabulate (Space16.size .wF2) fun _ => v
    bF2 := Memory.tabulate (Space16.size .bF2) fun _ => v }

theorem written_read16_eq (v : S16) (p : F32) (sp : Space16) (i : Nat) :
    (written v p).read16 sp i = if i < sp.size then some v else none := by
  cases sp <;> exact Memory.read_tabulate _ _ _

theorem written_read16 (v : S16) (p : F32) (sp : Space16) (i : Nat) (h : i < sp.size) :
    (written v p).read16 sp i = some v := (written_read16_eq v p sp i).trans (if_pos h)

theorem written_read16_fun (v : S16) (p : F32) (sp : Space16) :
    (written v p).read16 sp = fun i => if i < sp.size then some v else none :=
  funext (written_read16_eq v p sp)

theorem write16_read16_fun (s : State) (sp sp' : Space16) (i : Nat) (v : S16) :
    (s.write16 sp i v).read16 sp' = fun j => if sp' = sp ∧ j = i then some v else s.read16 sp' j :=
  funext fun j => State.read16_write16 s sp sp' i j v

/-- The same state without element 0 of IMG, C1, P1, C2 and of each weight matrix. -/
def gapped (v : S16) : State :=
  { written v 0#32 with
    img := Memory.tabulateFrom (fun _ => v) 783 1
    c1 := Memory.tabulateFrom (fun _ => v) 11519 1
    p1 := Memory.tabulateFrom (fun _ => v) 2879 1
    c2 := Memory.tabulateFrom (fun _ => v) 2559 1
    wC1 := Memory.tabulateFrom (fun _ => v) 499 1
    wC2 := Memory.tabulateFrom (fun _ => v) 19999 1
    wF1 := Memory.tabulateFrom (fun _ => v) 255999 1
    wF2 := Memory.tabulateFrom (fun _ => v) 3999 1 }

theorem gapped_read16 (v : S16) (sp : Space16) (i : Nat) (h0 : 0 < i) (h : i < sp.size) :
    (gapped v).read16 sp i = some v := by
  have hs : ∀ n : Nat, i < 1 + n → 1 ≤ i ∧ i < 1 + n := fun n hn => ⟨h0, hn⟩
  cases sp <;> first
    | exact (Memory.read_tabulate _ _ _).trans (if_pos h)
    | exact (Memory.read_tabulateFrom _ _ _ _).trans (if_pos (hs _ h))

theorem gapped_gap (v : S16) (sp : Space16)
    (h : sp = .img ∨ sp = .c1 ∨ sp = .p1 ∨ sp = .c2 ∨ sp = .wC1 ∨ sp = .wC2 ∨ sp = .wF1 ∨ sp = .wF2) :
    (gapped v).read16 sp 0 = none := by
  have hn : ∀ n : Nat, ¬(1 ≤ 0 ∧ 0 < 1 + n) := fun n => by omega
  rcases h with rfl | rfl | rfl | rfl | rfl | rfl | rfl | rfl <;>
    exact (Memory.read_tabulateFrom _ _ _ _).trans (if_neg (hn _))

theorem gapped_bias (v : S16) (i : Nat) :
    (i < 20 → (gapped v).read16 .bC1 i = some v) ∧ (i < 40 → (gapped v).read16 .bC2 i = some v) ∧
    (i < 400 → (gapped v).read16 .bF1 i = some v) ∧ (i < 10 → (gapped v).read16 .bF2 i = some v) ∧
    (i < 640 → (gapped v).read16 .p2 i = some v) ∧ (i < 400 → (gapped v).read16 .h1 i = some v) := by
  refine ⟨?_, ?_, ?_, ?_, ?_, ?_⟩ <;> intro h <;> exact (Memory.read_tabulate _ _ _).trans (if_pos h)

theorem written_readProb (v : S16) (p : F32) (i : Nat) (h : i < 10) :
    (written v p).readProb i = some p := (Memory.read_tabulate _ _ _).trans (if_pos h)

/-- STATUS while a command is at one of its stages. -/
def busyAt (i : Instr) (n : StageId) : Status :=
  { busy := true, done := false, err := false, stage := n, errCode := 0#4, cur := i.opcode }

/-- A written state in which a command is at one of its stages. -/
def running (i : Instr) (n : StageId) : State := { written 0#16 0#32 with status := busyAt i n }

theorem running_read16 (i : Instr) (n : StageId) (sp : Space16) (j : Nat) (h : j < sp.size) :
    (running i n).read16 sp j = some 0#16 := by
  cases sp <;> exact (Memory.read_tabulate _ _ _).trans (if_pos h)

theorem running_loaded (i : Instr) (n : StageId) : (running i n).loaded :=
  ⟨fun j h => ⟨_, running_read16 i n _ j h⟩, fun _ _ j h => ⟨_, running_read16 i n _ j h⟩⟩

/-- The state after reset with a list of events to come. -/
def idleWith (es : List Event) : State := { State.reset with events := es }

/-- A running state with a list of events to come. -/
def busyWith (es : List Event) : State := { running .forward 3#4 with events := es }

/-- STATUS as the host reads it after a step; all ones where the step stops. -/
def statusAfter (s : State) : U32 :=
  match step s with
  | .next t => t.status.toWord
  | _ => 0xFFFFFFFF#32

/-! ### One step of each command, against the vectors -/

/-- V-H1: after the NOP of `0x00000001` STATUS reads `0x00000002`. -/
theorem test_nop : statusAfter (State.reset.accept .nop) = 0x00000002#32 := by decide

/-- V-H2: FORWARD just accepted reads `0x000F0011`. -/
theorem test_forward_accepted : (State.reset.accept .forward).status.toWord = 0x000F0011#32 := by decide

/-- V-H2: after 6 and after 7 steps. -/
theorem test_forward_status :
    ((State.reset.accept .forward).status.endStage 7#4).toWord = 0x000F0021#32 ∧
    ((busyAt .forward 6#4).endStage 7#4).toWord = 0x000F0071#32 ∧
    ((busyAt .forward 7#4).endStage 7#4).toWord = 0x000F0002#32 := by decide

/-- V-Q6, V-Q10 under both tie rules, V-Q23 and V-Q36. -/
theorem test_quantize :
    quantize .away 8 0x40490FD0#32 = some 0x0324#16 ∧ quantize .away 8 0xBB000000#32 = some 0xFFFF#16 ∧
    quantize .even 8 0xBB000000#32 = some 0x0000#16 ∧ quantize .away 8 0x43960000#32 = some 0x2C00#16 ∧
    quantize .away 15 0xBF800000#32 = some 0x8000#16 ∧ quantize .away 8 0x7FC00000#32 = none := by decide

/-- V-Q21 through the command: Q_OUT holds the wrapped result and STATUS says done. -/
theorem test_quant :
    (match exec .quant { State.reset.accept .quant with qIn := 0xC3000080#32 } with
      | .next t => (t.csr .qOut, t.status.toWord)
      | _ => (0#32, 0#32)) = (0x00007FFF#32, 0x00090002#32) := by decide

/-- V-D3, V-D7, V-D13 and V-D17. -/
theorem test_dequantize :
    dequantize 8 0xFFFF#16 = 0xBB800000#32 ∧ dequantize 8 0x0324#16 = 0x40490000#32 ∧
    dequantize 0 0x8000#16 = 0xC7000000#32 ∧ dequantize 15 0x7FFF#16 = 0x3F7FFE00#32 := by decide

/-- V-D11 through the host and the command: bits 31:16 of the written word are ignored. -/
theorem test_dequant :
    (match exec .dequant (State.reset.hostWriteCsr .dqIn 0xABCD0100#32) with
      | .next t => (t.csr .dqIn, t.csr .dqOut)
      | _ => (0#32, 0#32)) = (0x00000100#32, 0x3F800000#32) := by decide

/-- V-MAC4, V-MAC7, V-MAC13 and V-MAC12: floor, narrowing, and the wrap that flips the ReLU decision. -/
theorem test_reduce :
    reduce 8 0#16 [(1#16, 0xFFFF#16)] false = 0xFFFF#16 ∧
    reduce 8 0#16 [(0x7FFF#16, 0x7FFF#16)] true = 0xFF00#16 ∧
    reduce 8 0#16 [(0x8000#16, 0x8000#16), (0x8000#16, 0x8000#16), (256#16, 256#16)] true = 0#16 ∧
    reduce 8 0#16 [(0x8000#16, 0x8000#16), (0x8000#16, 0x8000#16), (256#16, 256#16)] false = 256#16 := by
  decide

/-- The elements of a small tensor. -/
def tensor (l : List Int) (i : Nat) : Option S16 := (l[i]?).map (BitVec.ofInt 16)

/-- V-C1: the kernel is not flipped and the window moves along both axes. -/
theorem test_conv2d :
    (List.range 4).map (conv2dAt 8 { Z := 1, H := 3, W := 3, K := 1, KH := 2, KW := 2 }
      (tensor [256, 512, 768, 1024, 1280, 1536, 1792, 2048, 2304]) (tensor [256, 0, 0, 256])
      (tensor [0])) = [some 1536#16, some 2048#16, some 3072#16, some 3584#16] := by decide

/-- V-C4: two input and two output channels. -/
theorem test_conv2d_channels :
    (List.range 2).map (conv2dAt 8 { Z := 2, H := 2, W := 2, K := 2, KH := 2, KW := 2 }
      (tensor [256, -256, 512, 0, 128, 128, -128, 64])
      (tensor [256, 256, 256, 256, 0, 0, 0, 0, 0, 0, 0, 0, 512, -512, 256, 1024]) (tensor [10, -10])) =
      [some 522#16, some 118#16] := by decide

/-- What a command leaves in one element of a 16-bit space. -/
def elementAfter (i : Instr) (s : State) (sp : Space16) (j : Nat) : Option S16 :=
  match exec i s with
  | .next t => t.read16 sp j
  | _ => none

/-- Program P4, C1[0][0][0]: the centre tap copies IMG[0][2][2] = 300. -/
theorem test_conv1 :
    elementAfter .conv1 (((written 0#16 0#32).write16 .img 58 300#16).write16 .wC1 12 256#16) .c1 0 = some 300#16 := by
  simp only [elementAfter, exec_conv1, State.complete_read16, conv1Body_read16, write16_read16_fun,
    written_read16_fun]
  decide +kernel

/-- The example of R122 at [0][0][0]: P1[0][2][2] - P1[1][2][2] = 188 - 30. -/
theorem test_conv2 :
    elementAfter .conv2 (((((written 0#16 0#32).write16 .p1 26 188#16).write16 .p1 170 30#16).write16
      .wC2 12 256#16).write16 .wC2 37 0xFF00#16) .c2 0 = some 158#16 := by
  simp only [elementAfter, exec_conv2, State.complete_read16, conv2Body_read16, write16_read16_fun,
    written_read16_fun]
  decide +kernel

/-- V-P5: two channels; negative values are kept. -/
theorem test_maxpool2 :
    (List.range 8).map (maxpool2At { C := 2, H := 4, W := 4 }
      (tensor [1, 2, 3, 4, 5, 6, 7, 8, 9, 10, 11, 12, 13, 14, 15, 16, -1, -2, -3, -4, -5, -6, -7, -8, -9, -10,
        -11, -12, -13, -14, -15, -16])) =
      ([6, 8, 14, 16, -1, -3, -9, -11] : List Int).map fun v => some (BitVec.ofInt 16 v) := by decide

/-- V-P6: the compare is signed. -/
theorem test_max4 :
    max4 (some 0xFFFF#16) (some 0x0001#16) (some 0x8000#16) (some 0x7FFF#16) = some 0x7FFF#16 := by decide

/-- The example of R136: 1, 2 over 3, 4 give 4. -/
theorem test_pool1 :
    elementAfter .pool1 (((((written 0#16 0#32).write16 .c1 0 1#16).write16 .c1 1 2#16).write16 .c1 24 3#16).write16
      .c1 25 4#16) .p1 0 = some 4#16 := by
  simp only [elementAfter, exec_pool1, State.complete_read16, pool1Body_read16, write16_read16_fun,
    written_read16_fun]
  decide +kernel

/-- The example of R137: P2[1][3][3], element 31, is -1. -/
theorem test_pool2 :
    elementAfter .pool2 (((((written 0#16 0#32).write16 .c2 118 0xFFFF#16).write16 .c2 119 0xFFFE#16).write16
      .c2 126 0xFFFD#16).write16 .c2 127 0xFFFC#16) .p2 31 = some 0xFFFF#16 := by
  simp only [elementAfter, exec_pool2, State.complete_read16, pool2Body_read16, write16_read16_fun,
    written_read16_fun]
  decide +kernel

/-- V-F3 and V-F4. -/
theorem test_dense :
    (List.range 2).map (dense 8 { In := 2, Out := 2 } (tensor [256, 512]) (tensor [128, 64, -256, -256])
      (tensor [5, -5]) true) = [some 261#16, some 0#16] ∧
    (List.range 2).map (dense 8 { In := 2, Out := 2 } (tensor [256, 512]) (tensor [128, 64, -256, -256])
      (tensor [5, -5]) false) = [some 261#16, some 0xFCFB#16] := by decide

/-- R65: with nothing written, H1[0] is the first unspecified value, and the command completes. -/
theorem test_fc1 : elementAfter .fc1 State.reset .h1 0 = some (Config.draw16 0) := by rfl

/-- The example of R147: H1[1] = 58 and W_F2[7][1] = 128 give the accumulator 7424 and LOGIT[7] = 29. -/
theorem test_fc2 :
    elementAfter .fc2 (((written 0#16 0#32).write16 .h1 1 58#16).write16 .wF2 2801 128#16) .logit 7 = some 29#16 := by
  simp only [elementAfter, exec_fc2, State.complete_read16, fc2Body_read16, write16_read16_fun,
    written_read16_fun]
  decide +kernel

/-- V-S3: the shifted values, and the division of its tabulated exponentials; the last sum is the one R171 names. -/
theorem test_softmax :
    shifted 8 [256#16, 0#16, 0#16] = [0x00000000#32, 0xBF800000#32, 0xBF800000#32] ∧
    floatSum (0x3F800000#32 :: List.replicate 9 0x3EBC5AB2#32) = 0x4089F303#32 ∧
    normalize 0x35800000#32 (0x3F800000#32 :: List.replicate 9 0x3EBC5AB2#32) =
      0x3E6D895F#32 :: List.replicate 9 0x3DAEC509#32 ∧
    floatSum (List.replicate 10 0x3DCCCCCD#32) = 0x3F800001#32 := by decide +kernel

/-- The fallback, exercised as spec/95_test_vectors.md says, with an epsilon of 2.0 on V-S5. -/
theorem test_softmax_fallback :
    normalize 0x40000000#32 (0x3F800000#32 :: List.replicate 9 0#32) =
      List.replicate 10 0x3DCCCCCD#32 := by decide +kernel

/-- V-A2, V-A5 and V-A6: the first of two maxima, a NaN at index 0, and a -0.0. -/
theorem test_argmax :
    argmax [0x3D986B81#32, 0x3D986B81#32, 0x3D986B81#32, 0x3E4F2901#32, 0x3D986B81#32, 0x3D986B81#32,
      0x3D986B81#32, 0x3E4F2901#32, 0x3D986B81#32, 0x3D986B81#32] = 3 ∧
    argmax (0x7FC00000#32 :: List.replicate 9 0x3F800000#32) = 0 ∧
    argmax (0x00000000#32 :: 0x80000000#32 :: 0x3F800000#32 :: List.replicate 7 0#32) = 2 := by decide

/-- V-H3 and V-A2 through the command: AMAX and STATUS after ARGMAX. -/
theorem test_argmax_command :
    (match exec .argmax { State.reset.accept .argmax with
        prob := Memory.tabulate 10 fun i => if i = 3 ∨ i = 7 then 0x3E4F2901#32 else 0x3D986B81#32 } with
      | .next t => (t.csr .amax, t.status.toWord)
      | _ => (0xFFFFFFFF#32, 0#32)) = (0x00000003#32, 0x00080002#32) := by decide

/-- V-N: the image normaliser, F = 8 and F = 7. -/
theorem test_normalize_pixel :
    normalizePixel 8 255#8 = 256#16 ∧ normalizePixel 8 254#8 = 254#16 ∧
    normalizePixel 7 1#8 = 0#16 ∧ normalizePixel 7 127#8 = 63#16 := by decide

/-- R185: the offline loader writes a value for every weight, a NaN included. -/
theorem test_load_offline (free : Space16 → Nat → S16) :
    loadOffline .away 8 free .wC1 [(0, 0x3F800000#32), (1, 0x7FC00000#32)] =
      wr16 .wC1 0 256#16 ++ wr16 .wC1 1 (free .wC1 1) := by
  have h : quantize .away 8 0x3F800000#32 = some 256#16 := by decide
  have h' : quantize .away 8 0x7FC00000#32 = none := by decide
  simp [loadOffline, offlineValue, h, h']

/-- R86 with V-A5's line `PROB[1..9]`: nine writes, of the indices 1 to 9 in order; and the range of one index. -/
theorem test_wrRangeProb :
    wrRangeProb 1 9 0x3F800000#32 = wrProb 1 0x3F800000#32 ++ wrRangeProb 2 9 0x3F800000#32 ∧
    (wrRangeProb 1 9 0x3F800000#32).length = 9 ∧
    wrRangeProb 9 9 0x3F800000#32 = wrProb 9 0x3F800000#32 ∧
    wrRangeProb 1 9 0x3F800000#32 = wrRangeProb 1 8 0x3F800000#32 ++ wrProb 9 0x3F800000#32 := by decide

/-- R87: `ZERO` writes as many elements as the space has. -/
theorem test_zeroLine :
    (zeroLine .logit).length = 10 ∧ zeroLine .logit = wrRange16 .logit 0 9 0#16 ∧
    zeroProbLine.length = 10 := by decide

/-! ### The handshake and the errors -/

/-- V-H4 and V-H5: an illegal word, then a command that is accepted with ERR set. -/
theorem test_illegal_then_quant :
    (State.reset.writeCmd 0x0000000B#32).status.toWord = 0x00000104#32 ∧
    ((State.reset.writeCmd 0x0000000B#32).writeCmd 0x00000009#32).status.toWord = 0x00090195#32 := by decide

/-- V-H6, V-H7 and V-H8. -/
theorem test_busy_errors :
    ((busyWith []).writeCmd 0#32).status.toWord = 0x000F0235#32 ∧
    ((busyWith []).hostWrite16 .img 0 5#16).status.toWord = 0x000F0335#32 ∧
    (((busyWith []).writeCmd 0#32).hostWrite16 .img 0 5#16).status.toWord = 0x000F0235#32 := by decide

/-- V-H10, V-H11 and V-H12. -/
theorem test_readonly_registers :
    State.reset.hostWriteCsr .status 0xFFFFFFFF#32 = State.reset ∧ State.reset.csr .cfg = 0x00000008#32 ∧
    State.reset.csr .cmd = 0x00000000#32 := ⟨rfl, rfl, rfl⟩

/-- V-H13: a reset while busy. -/
theorem test_reset_while_busy :
    ((busyWith []).resetBlock).status.toWord = 0x00000000#32 ∧ ((busyWith []).resetBlock).img = [] :=
  ⟨rfl, rfl⟩

/-! ### Witnesses: the command word, the step, the sequencer -/

theorem witness_DecodeMatchesExactlyTheEncodings : decode 0x0000000F#32 = .ok .forward := rfl

theorem witness_ReservedWordsAreIllegal :
    encode .nop = encode .nop ∧ (¬∃ i : Instr, 0x0000000B#32 = encode i) ∧
    (¬∃ i : Instr, 0x0000000E#32 = encode i) ∧ (¬∃ i : Instr, 0x00000010#32 = encode i) ∧
    (¬∃ i : Instr, 0x00000100#32 = encode i) ∧
    (idleWith [.host (.write (Csr.addr .cmd) (.w32 0x0000000B#32))]).status.busy = false ∧
    (idleWith [.host (.write (Csr.addr .cmd) (.w32 0x0000000B#32))]).events =
      .host (.write (Csr.addr .cmd) (.w32 0x0000000B#32)) :: [] := by
  refine ⟨rfl, ?_, ?_, ?_, ?_, rfl, rfl⟩ <;> rintro ⟨i, h⟩ <;> cases i <;> exact absurd h (by decide)

theorem witness_StepRunsTheCommandInCur :
    (running .conv1 1#4).status.busy = true ∧ decode (running .conv1 1#4).commandWord = .ok .conv1 ∧
    (running .conv1 1#4).events = [] ∧ (busyWith [.core]).status.busy = true ∧
    decode (busyWith [.core]).commandWord = .ok .forward ∧ (busyWith [.core]).events = .core :: [] ∧
    (idleWith []).status.busy = false ∧ (idleWith []).events = [] ∧
    (idleWith [.core]).status.busy = false ∧ (idleWith [.core]).events = .core :: [] :=
  ⟨rfl, rfl, rfl, rfl, rfl, rfl, rfl, rfl, rfl, rfl⟩

theorem witness_StepRunsTheCommandInCur_ended :
    (idleWith [.core, .core]).ended ∧ (idleWith []).ended :=
  ⟨⟨by decide, rfl⟩, ⟨by decide, rfl⟩⟩

/-- R199: with a host move left, or BUSY = 1, the program has not ended. -/
theorem test_notEnded : ¬(idleWith [.core, .host .wait]).ended ∧ ¬(busyWith [.core]).ended :=
  ⟨fun h => absurd h.1 (by decide), fun h => absurd h.2 (by decide)⟩

theorem witness_AcceptedCommandSetsStatus :
    (idleWith (cmdLine .forward)).status.busy = false ∧ (0x0000000F#32 : U32) = encode .forward ∧
    (idleWith (cmdLine .forward)).events = .host (.write (Csr.addr .cmd) (.w32 0x0000000F#32)) :: [] :=
  ⟨rfl, rfl, rfl⟩

theorem witness_AcceptedCommandSetsStatus_single :
    (idleWith (cmdLine .dequant)).status.busy = false ∧ (0x0000000A#32 : U32) = encode .dequant ∧
    (idleWith (cmdLine .dequant)).events = .host (.write (Csr.addr .cmd) (.w32 0x0000000A#32)) :: [] :=
  ⟨rfl, rfl, rfl⟩

theorem witness_SingleStageCommandsComplete : Instr.nop ≠ .forward ∧ Instr.dequant ≠ .forward := by decide

theorem witness_ForwardPerformsItsStage :
    (running .forward 1#4).status.stage = 1#4 ∧ (running .forward 2#4).status.stage = 2#4 ∧
    (running .forward 3#4).status.stage = 3#4 ∧ (running .forward 4#4).status.stage = 4#4 ∧
    (running .forward 5#4).status.stage = 5#4 ∧ (running .forward 6#4).status.stage = 6#4 ∧
    (running .forward 7#4).status.stage = 7#4 := ⟨rfl, rfl, rfl, rfl, rfl, rfl, rfl⟩

/-- At stage 1 another space of 16 bits, PROB and the registers are framed. -/
theorem witness_ForwardPerformsItsStage_frame :
    (∃ t : State, exec .forward (running .forward 1#4) = .next t) ∧
    Space16.id .img ≠ (running .forward 1#4).status.stage.toNat ∧ (running .forward 1#4).status.stage ≠ 7#4 :=
  ⟨(exec_forward rfl).elim fun _ h => ⟨_, h.2⟩, by decide, by decide⟩

/-- BUSY rises by an accepted command. -/
theorem witness_FlagsRiseOnlyAsStated_busy :
    ∃ t : State, step (idleWith (cmdLine .pool1)) = .next t ∧
      (idleWith (cmdLine .pool1)).status.busy = false ∧ t.status.busy = true := ⟨_, rfl, rfl, rfl⟩

/-- DONE rises by the last step of a command. -/
theorem witness_FlagsRiseOnlyAsStated_done :
    ∃ t : State, step (running .nop 0#4) = .next t ∧
      (running .nop 0#4).status.done = false ∧ t.status.done = true := ⟨_, rfl, rfl, rfl⟩

/-- A command word that was read is written back to CMD. -/
theorem witness_FlagsRiseOnlyAsStated_writeBack :
    ∃ t : State, step { idleWith [.host (.writeBack (Csr.addr .cmd))] with rdata := .s16 0x000F#16 } = .next t ∧
      t.status.busy = true ∧ t.status.cur = Instr.opcode .forward := ⟨_, rfl, rfl, rfl⟩

/-- ERR rises by a write of the host while busy, and by an illegal word while idle. -/
theorem witness_FlagsRiseOnlyAsStated_err :
    ∃ t u : State, step (busyWith (wr16 .img 0 5#16)) = .next t ∧
      (busyWith (wr16 .img 0 5#16)).status.err = false ∧ t.status.err = true ∧
      step (idleWith (wrReg .cmd 0x0B#32)) = .next u ∧
      (idleWith (wrReg .cmd 0x0B#32)).status.err = false ∧ u.status.err = true :=
  ⟨_, _, rfl, rfl, rfl, rfl, rfl, rfl⟩

/-! ### Witnesses: errors and accesses -/

theorem witness_CommandWhileBusyRecordsCodeTwo :
    (busyWith (cmdLine .nop)).status.busy = true ∧
    (busyWith (cmdLine .nop)).events = .host (.write (Csr.addr .cmd) (.w32 0x00000000#32)) :: [] :=
  ⟨rfl, rfl⟩

/-- A memory element, PROB, and Q_IN. -/
theorem witness_WriteWhileBusyRecordsCodeThree :
    (busyWith (wr16 .wF1 255999 1#16)).status.busy = true ∧
    resolve (Space16.addr .wF1 255999) = some (.mem16 .wF1 255999) ∧
    Element.fits (.s16 1#16) (Space16.addr .wF1 255999) = true ∧
    (∀ r : Csr, Location.mem16 .wF1 255999 = .csr r → r = .qIn ∨ r = .dqIn) ∧
    (busyWith (wr16 .wF1 255999 1#16)).events =
      .host (.write (Space16.addr .wF1 255999) (.s16 1#16)) :: [] :=
  ⟨rfl, by decide, rfl, (by intro r h; cases h), rfl⟩

theorem witness_WriteWhileBusyRecordsCodeThree_register :
    (busyWith (wrReg .dqIn 1#32)).status.busy = true ∧ resolve (Csr.addr .dqIn) = some (.csr .dqIn) ∧
    Element.fits (.w32 1#32) (Csr.addr .dqIn) = true ∧
    (∀ r : Csr, Location.csr .dqIn = .csr r → r = .qIn ∨ r = .dqIn) ∧
    (busyWith (wrReg .dqIn 1#32)).events = .host (.write (Csr.addr .dqIn) (.w32 1#32)) :: [] :=
  ⟨rfl, rfl, rfl, (by intro r h; cases h; exact .inr rfl), rfl⟩

theorem witness_WriteWhileBusyRecordsCodeThree_read :
    ∃ t : State, (busyWith (rd (probAddr 9))).status.busy = true ∧
      (busyWith (rd (probAddr 9))).events = .host (.read (probAddr 9)) :: [] ∧
      step (busyWith (rd (probAddr 9))) = .next t := ⟨_, rfl, rfl, rfl⟩

/-- A command that runs while ERR is set. -/
theorem witness_ErrorsAreRecordedOnceAndSticky :
    ∃ t u : State, exec .nop (State.reset.raiseCmdError 1#4) = .next t ∧
      step (State.reset.raiseCmdError 1#4) = .next u ∧
      (State.reset.raiseCmdError 1#4).status.err = true ∧
      ∀ es : List Event, (State.reset.raiseCmdError 1#4).events ≠ .host .reset :: es :=
  ⟨_, _, rfl, rfl, rfl, by intro es h; cases h⟩

theorem witness_RegisterReadsAndWrites :
    (idleWith (rd (Csr.addr .amax))).status.busy = false ∧
    (idleWith (rd (Csr.addr .amax))).events = .host (.read (Csr.addr .amax)) :: [] ∧
    (idleWith (wrReg .qIn 7#32)).status.busy = false ∧
    (idleWith (wrReg .qIn 7#32)).events = .host (.write (Csr.addr .qIn) (.w32 7#32)) :: [] ∧
    (idleWith (wrReg .dqIn 7#32)).status.busy = false ∧
    (idleWith (wrReg .dqIn 7#32)).events = .host (.write (Csr.addr .dqIn) (.w32 7#32)) :: [] ∧
    (busyWith (wrReg .qOut 7#32)).events = .host (.write (Csr.addr .qOut) (.w32 7#32)) :: [] :=
  ⟨rfl, rfl, rfl, rfl, rfl, rfl, rfl⟩

/-- A memory element, PROB, a register with its normal result and an owned one. -/
theorem witness_ReadsWhileBusy :
    (busyWith (rd (Space16.addr .img 783))).status.busy = true ∧
    resolve (Space16.addr .img 783) = some (.mem16 .img 783) ∧
    (busyWith (rd (Space16.addr .img 783))).events = .host (.read (Space16.addr .img 783)) :: [] ∧
    resolve (probAddr 9) = some (.prob 9) ∧ resolve (Csr.addr .status) = some (.csr .status) ∧
    resolve (Csr.addr .amax) = some (.csr .amax) := ⟨rfl, by decide, rfl, by decide, rfl, rfl⟩

theorem witness_IdleMemoryAccess :
    State.reset.status.busy = false ∧ 11519 < Space16.size .c1 ∧
    (idleWith (rd (Space16.addr .c1 11519))).status.busy = false ∧
    (idleWith (rd (Space16.addr .c1 11519))).read16 .c1 11519 = none ∧
    (idleWith (rd (Space16.addr .c1 11519))).events = .host (.read (Space16.addr .c1 11519)) :: [] :=
  ⟨rfl, by decide, rfl, rfl, rfl⟩

/-- The last element of PROB, written and not. -/
theorem witness_IdleMemoryAccess_prob :
    State.reset.status.busy = false ∧ 9 < 10 ∧ (idleWith (rd (probAddr 9))).status.busy = false ∧
    (idleWith (rd (probAddr 9))).readProb 9 = none ∧
    (idleWith (rd (probAddr 9))).events = .host (.read (probAddr 9)) :: [] :=
  ⟨rfl, by decide, rfl, rfl, rfl⟩

/-- The first index past the end, a space that does not exist, and a legal move. -/
theorem witness_AddressesOutOfRangeAreRefused :
    Addr.wf { space := 5, index := 400 } = false ∧ Addr.wf { space := 17, index := 0 } = false ∧
    Addr.wf { space := 5, index := 399 } = true ∧
    (idleWith [.host (.read { space := 17, index := 0 })]).events =
      .host (.read { space := 17, index := 0 }) :: [] ∧
    HostMove.wf (.write (Space16.addr .h1 399) (.s16 1#16)) = true ∧
    (idleWith (wr16 .h1 399 1#16)).events = .host (.write (Space16.addr .h1 399) (.s16 1#16)) :: [] :=
  ⟨by decide, by decide, by decide, rfl, by decide, rfl⟩

theorem witness_HostCannotDisturbARunningCommand :
    ∃ t : State, (busyWith (wr16 .img 0 5#16)).status.busy = true ∧
      (busyWith (wr16 .img 0 5#16)).events = .host (.write (Space16.addr .img 0) (.s16 5#16)) :: [] ∧
      HostMove.write (Space16.addr .img 0) (.s16 5#16) ≠ .reset ∧
      step (busyWith (wr16 .img 0 5#16)) = .next t := ⟨_, rfl, rfl, by decide, rfl⟩

theorem witness_ResetMoveClearsTheBlock :
    (busyWith resetLine).events = .host .reset :: [] := rfl

/-! ### Witnesses: the invariant -/

/-- A busy state with the invariant, every element of it written. -/
theorem running_nop_inv : (running .nop 0#4).Inv where
  memWf sp := by cases sp <;> (simp only [running, written, State.mem]; exact Memory.wf_tabulate _ _)
  probWf := by simp only [running, written]; exact Memory.wf_tabulate _ _
  notBusyAndDone := by decide
  idleStage := by intro h; cases h
  noErrCode := by intro; rfl
  errCodes := by intro h; cases h
  curLegal := ⟨.nop, rfl⟩
  busyStage i _ h := by
    have h' : Instr.opcode .nop = i.opcode := h
    cases i <;> first | exact absurd h' (by decide) | decide
  amaxRange := by decide

theorem witness_StepKeepsTheInvariant :
    ∃ t : State, (running .nop 0#4).Inv ∧ step (running .nop 0#4) = .next t := ⟨_, running_nop_inv, rfl⟩

theorem witness_LegalStepsNeverStop : (running .nop 0#4).Inv ∧ (running .nop 0#4).hostLegal :=
  ⟨running_nop_inv, by intro e h; cases h⟩

theorem witness_RunsFromResetNeverStop :
    ∀ e ∈ resetLine ++ classifyLine ++ wr16 .wF1 255999 1#16, Event.wf e = true := by decide

theorem witness_BuildAndWeightsNeverChange :
    ∃ t u : State, step (running .nop 0#4) = .next t ∧ exec .fc1 (running .fc1 5#4) = .next u ∧
      Space16.isWeight .wF1 = true := ⟨_, _, rfl, rfl, rfl⟩

/-! ### Witnesses: the arithmetic -/

theorem witness_ProductAndStartNeverWrap :
    (15 : Nat) ≤ 15 ∧ (0x8000#16 : S16).toInt = -32768 ∧
    (0x8000#16 : S16).toInt * (0x8000#16 : S16).toInt = 2 ^ 30 ∧
    (0x8000#16 : S16).toInt * (0x7FFF#16 : S16).toInt = -2 ^ 30 + 2 ^ 15 := by decide

theorem witness_AccumulatorHoldsTheWrappedSum :
    [((1#16 : S16), (2#16 : S16)), (3#16, 4#16)].Perm [(3#16, 4#16), (1#16, 2#16)] := by decide

theorem witness_OverflowChangesOnlyTheReluDecision : (15 : Nat) ≤ 15 := by decide

/-- Three terms at the bounds |x|, |w| at most 256, with a sum of either sign. -/
theorem witness_BoundedDataGivesTheIdealResult :
    (8 : Nat) ≤ 15 ∧
    (∀ p ∈ [((256#16 : S16), (256#16 : S16)), (0xFF00#16, 256#16), (1#16, 256#16)],
      p.1.toInt.natAbs ≤ 256 ∧ p.2.toInt.natAbs ≤ 256) ∧
    2 ^ (15 + 8) + [((256#16 : S16), (256#16 : S16)), (0xFF00#16, 256#16), (1#16, 256#16)].length * 256 * 256
      < 2 ^ 31 ∧
    exactSum 8 (-7#16) [(256#16, 256#16), (0xFF00#16, 256#16), (1#16, 256#16)] / 2 ^ 8 = -6 := by
  refine ⟨by decide, ?_, by simp, by decide⟩
  intro p hp
  simp only [List.mem_cons, List.not_mem_nil, or_false] at hp
  rcases hp with rfl | rfl | rfl <;> decide

theorem witness_DequantizeIsExact : (15 : Nat) ≤ 15 ∧ (0#16 : S16) = 0#16 ∧ (1#16 : S16) ≠ 0#16 := by decide

/-- The boundary V-Q17, the largest value in range. -/
theorem witness_QuantizeRoundTrip :
    (8 : Nat) ≤ 15 ∧ quantize .away 8 0x42FFFE00#32 = some 0x7FFF#16 ∧
    -32768 ≤ roundedScaled .away 8 0x42FFFE00#32 ∧ roundedScaled .away 8 0x42FFFE00#32 ≤ 32767 := by decide

/-- A finite operand, a tie, and an infinity. -/
theorem witness_QuantComputes :
    F32.isFinite ({ State.reset with qIn := 0x7F7FFFFF#32 } : State).qIn = true ∧
    F32.isFinite ({ State.reset with qIn := 0x7F800000#32 } : State).qIn = false ∧
    (2 * (F32.scaled 0x3B000000#32 * 2 ^ 8 - 1 * 2 ^ 149)).natAbs = 2 ^ 149 := by decide

/-! ### Witnesses: the stages -/

/-- The last output, while the first input and the first weight hold no value. -/
theorem witness_Conv1Computes :
    (gapped 5#16).read16 .img 0 = none ∧ (gapped 5#16).read16 .wC1 0 = none ∧
    (gapped 5#16).read16 .bC1 19 = some 5#16 ∧
    ∀ ky kx : Nat, ky < 5 → kx < 5 →
      (gapped 5#16).read16 .img ((23 + ky) * 28 + (23 + kx)) = some 5#16 ∧
      (gapped 5#16).read16 .wC1 ((19 * 5 + ky) * 5 + kx) = some 5#16 := by
  refine ⟨gapped_gap _ _ (by simp), gapped_gap _ _ (by simp), (gapped_bias _ _).1 (by decide), fun ky kx hy hx => ⟨?_, ?_⟩⟩
  · exact gapped_read16 _ .img _ (by omega) (by show _ < 784; omega)
  · exact gapped_read16 _ .wC1 _ (by omega) (by show _ < 500; omega)

theorem witness_Conv2Computes :
    (gapped 5#16).read16 .p1 0 = none ∧ (gapped 5#16).read16 .wC2 0 = none ∧
    (gapped 5#16).read16 .bC2 39 = some 5#16 ∧
    ∀ z ky kx : Nat, z < 20 → ky < 5 → kx < 5 →
      (gapped 5#16).read16 .p1 ((z * 12 + (7 + ky)) * 12 + (7 + kx)) = some 5#16 ∧
      (gapped 5#16).read16 .wC2 (((39 * 20 + z) * 5 + ky) * 5 + kx) = some 5#16 := by
  refine ⟨gapped_gap _ _ (by simp), gapped_gap _ _ (by simp), (gapped_bias _ _).2.1 (by decide), fun z ky kx hz hy hx => ⟨?_, ?_⟩⟩
  · exact gapped_read16 _ .p1 _ (by omega) (by show _ < 2880; omega)
  · exact gapped_read16 _ .wC2 _ (by omega) (by show _ < 20000; omega)

/-- The kernel of source example S7 in the shape of CONV1. -/
theorem witness_IdentityKernelCopies :
    (14 : Nat) ≤ 14 ∧ conv1Shape.wf = true ∧ conv1Shape.KH = 5 ∧ conv1Shape.KW = 5 ∧ 0 < conv1Shape.Z ∧
    ∀ z ky kx : Nat, z < conv1Shape.Z → ky < 5 → kx < 5 →
      (fun i : Nat => if i = 12 then BitVec.ofNat 16 (2 ^ 14) else 0#16)
        (idx4 conv1Shape.Z conv1Shape.KH conv1Shape.KW 0 z ky kx) =
        if z = 0 ∧ ky = 2 ∧ kx = 2 then BitVec.ofNat 16 (2 ^ 14) else 0#16 := by
  refine ⟨by decide, by decide, rfl, rfl, by decide, ?_⟩
  intro z ky kx hz hy hx
  have hz' : z = 0 := by simp only [conv1Shape] at hz; omega
  subst hz'
  interval_cases ky <;> interval_cases kx <;> decide

/-- The last output of CONV2 with its last tap, and the last output of POOL1 with the last element of its window. -/
theorem witness_StageIndicesStayInRange :
    conv2Shape.wf = true ∧ 39 < conv2Shape.K ∧ 19 < conv2Shape.Z ∧ 7 < conv2Shape.OH ∧ 7 < conv2Shape.OW ∧
    4 < conv2Shape.KH ∧ 4 < conv2Shape.KW ∧ pool1Shape.wf = true ∧ 19 < pool1Shape.C ∧
    11 < pool1Shape.H / 2 ∧ 11 < pool1Shape.W / 2 ∧ 1 < 2 := by decide

/-- The last window, while the first element of the input holds no value. -/
theorem witness_Pool1Computes :
    (gapped 5#16).read16 .c1 0 = none ∧ (11494 : Nat) = (19 * 24 + 2 * 11) * 24 + 2 * 11 ∧
    ∀ d : Nat, d = 0 ∨ d = 1 ∨ d = 24 ∨ d = 25 → (gapped 5#16).read16 .c1 (11494 + d) = some 5#16 :=
  ⟨gapped_gap _ _ (by simp), by decide, fun _ _ => gapped_read16 _ .c1 _ (by omega) (by show _ < 11520; omega)⟩

theorem witness_Pool2Computes :
    (gapped 5#16).read16 .c2 0 = none ∧ (2550 : Nat) = (39 * 8 + 2 * 3) * 8 + 2 * 3 ∧
    ∀ d : Nat, d = 0 ∨ d = 1 ∨ d = 8 ∨ d = 9 → (gapped 5#16).read16 .c2 (2550 + d) = some 5#16 :=
  ⟨gapped_gap _ _ (by simp), by decide, fun _ _ => gapped_read16 _ .c2 _ (by omega) (by show _ < 2560; omega)⟩

/-- The last output, while the first weight of the first row holds no value. -/
theorem witness_Fc1Computes :
    (gapped 5#16).read16 .wF1 0 = none ∧ (gapped 5#16).read16 .bF1 399 = some 5#16 ∧
    ∀ i : Nat, i < 640 → (gapped 5#16).read16 .p2 i = some 5#16 ∧
      (gapped 5#16).read16 .wF1 (399 * 640 + i) = some 5#16 :=
  ⟨gapped_gap _ _ (by simp), (gapped_bias _ _).2.2.1 (by decide), fun i h => ⟨(gapped_bias _ _).2.2.2.2.1 h,
    gapped_read16 _ .wF1 _ (by omega) (by show _ < 256000; omega)⟩⟩

theorem witness_Fc2Computes :
    (gapped 5#16).read16 .wF2 0 = none ∧ (gapped 5#16).read16 .bF2 9 = some 5#16 ∧
    ∀ i : Nat, i < 400 → (gapped 5#16).read16 .h1 i = some 5#16 ∧
      (gapped 5#16).read16 .wF2 (9 * 400 + i) = some 5#16 :=
  ⟨gapped_gap _ _ (by simp), (gapped_bias _ _).2.2.2.1 (by decide), fun i h => ⟨(gapped_bias _ _).2.2.2.2.2 h,
    gapped_read16 _ .wF2 _ (by omega) (by show _ < 4000; omega)⟩⟩

/-- Row 2 of V-F1 at F = 14. -/
theorem witness_IdentityRowCopies :
    (14 : Nat) ≤ 14 ∧ 2 < ({ In := 3, Out := 3 } : DenseShape).In ∧
    ∀ i : Nat, i < 3 → (fun j : Nat => if j = 8 then BitVec.ofNat 16 (2 ^ 14) else 0#16) (idx2 3 2 i) =
      if i = 2 then BitVec.ofNat 16 (2 ^ 14) else 0#16 := by decide

/-- Every case at its last output, on the state after reset. -/
theorem witness_UnwrittenOperandGivesUnspecifiedOutput :
    State.reset.read16 .bC1 19 = none ∧ State.reset.read16 .img ((23 + 4) * 28 + (23 + 4)) = none ∧
    State.reset.read16 .wC1 ((19 * 5 + 4) * 5 + 4) = none ∧ State.reset.read16 .bC2 39 = none ∧
    State.reset.read16 .p1 ((19 * 12 + (7 + 4)) * 12 + (7 + 4)) = none ∧
    State.reset.read16 .wC2 (((39 * 20 + 19) * 5 + 4) * 5 + 4) = none ∧
    State.reset.read16 .c2 (2550 + 9) = none ∧ State.reset.read16 .c1 (11494 + 25) = none ∧
    State.reset.read16 .bF1 399 = none ∧ State.reset.read16 .p2 639 = none ∧
    State.reset.read16 .bF2 9 = none ∧ State.reset.read16 .h1 399 = none := by decide

theorem witness_UnspecifiedResultsAreDraws :
    (∃ i : Nat, i < 10 ∧ State.reset.read16 .logit i = none) ∧
    (∃ i : Nat, i < 10 ∧ State.reset.readProb i = none) ∧
    F32.isFinite ({ State.reset with qIn := 0xFF800000#32 } : State).qIn = false :=
  ⟨⟨9, by decide, rfl⟩, ⟨9, by decide, rfl⟩, by decide⟩

/-! ### Witnesses: softmax and argmax -/

theorem witness_SoftmaxComputes :
    ∃ (L : Nat → S16) (M : Int) (e : Nat → F32) (total : F32),
      (∀ i, i < 10 → (written 5#16 0#32).read16 .logit i = some (L i)) ∧
      (∀ i, i < 10 → (L i).toInt ≤ M) ∧ (∃ i, i < 10 ∧ (L i).toInt = M) ∧
      (∀ i, e i = Config.expUnit.exp32 (F32.ofFixed (written 5#16 0#32).cfg.F.val ((L i).toInt - M))) ∧
      total = [e 1, e 2, e 3, e 4, e 5, e 6, e 7, e 8, e 9].foldl F32.fadd (e 0) :=
  ⟨fun _ => 5#16, 5, _, _, fun i h => written_read16 _ _ .logit i h, fun _ _ => (by decide : (5#16 : S16).toInt ≤ 5),
    ⟨9, by decide, by decide⟩, fun _ => rfl, rfl⟩

/-- The largest finite pattern, which the premise of the two rounding clauses still admits. -/
theorem witness_SoftmaxComputes_rounding :
    F32.isFinite 0x7F7FFFFF#32 = true ∧ F32.isFinite 0x3F800000#32 = true ∧
    (F32.scaled 0x7F7FFFFF#32 + F32.scaled 0x00000000#32).natAbs < (2 ^ 25 - 1) * 2 ^ 252 ∧
    F32.scaled 0x3F800000#32 ≠ 0 ∧
    (F32.scaled 0x7F7FFFFF#32).natAbs * 2 ^ 149 <
      (2 ^ 25 - 1) * 2 ^ 252 * (F32.scaled 0x3F800000#32).natAbs := by decide +kernel

/-- The largest difference of two logits, which no 16-bit value reaches, and none. -/
theorem witness_SoftmaxComputes_shift :
    (15 : Nat) ≤ 15 ∧ (-65535 : Int) ≤ -65535 ∧ (-65535 : Int) ≤ 0 ∧ (-65535 : Int) ≤ 0 ∧
    (0x8000#16 : S16).toInt - (0x7FFF#16 : S16).toInt = -65535 := by decide

/-- V-S5's shifted value -255.99609375 at F = 8. -/
theorem test_shifted_end : shifted 8 [0x7FFF#16, 0x8000#16] = [0x00000000#32, 0xC37FFF00#32] := by decide

/-- R11: a tie of `fadd` and one of `fdiv` go to the even fraction, in either direction. -/
theorem test_rounding :
    F32.fadd 0x4B800000#32 0x3F800000#32 = 0x4B800000#32 ∧
    F32.fadd 0x4B800001#32 0x3F800000#32 = 0x4B800002#32 ∧
    F32.fdiv 0x00000001#32 0x40000000#32 = 0x00000000#32 ∧
    F32.fdiv 0x00000003#32 0x40000000#32 = 0x00000002#32 := by decide +kernel

theorem witness_ArgmaxComputes :
    ∀ i, i < 10 → (written 0#16 0x7FC00000#32).readProb i = some ((fun _ => 0x7FC00000#32) i) :=
  fun i h => written_readProb _ _ i h

/-- A list whose element 0 is a NaN, and one with a later maximum behind numbers. -/
theorem witness_ArgmaxIsTheFirstMaximum :
    ([0x7FC00000#32, 0x3F800000#32] : List F32) ≠ [] ∧
    F32.isNaN (([0x7FC00000#32, 0x3F800000#32] : List F32).getD 0 0#32) = true ∧
    1 < ([0x7FC00000#32, 0x3F800000#32] : List F32).length ∧
    0 < argmax [0x3F000000#32, 0x3F800000#32] ∧
    F32.isNaN (([0x3F000000#32, 0x3F800000#32] : List F32).getD 0 0#32) = false := by decide

/-- The exponential that is 1.0 at +0.0 and underflows everywhere else. -/
def expStep (p : F32) : F32 := if p = 0#32 then 0x3F800000#32 else 0#32

theorem ofFixed_neg_ne_zero (F k : Nat) (hk : 0 < k) : F32.ofFixed F (-(k : Int)) ≠ 0#32 := by
  have hz : (-(k : Int)) * 2 ^ (149 - F) < 0 :=
    mul_neg_of_neg_of_pos (by omega) (by positivity)
  have hm : F32.rneMag ((-(k : Int)) * 2 ^ (149 - F)).natAbs 1 ≤ 0x7F800000 := by
    simp only [F32.rneMag]; exact Nat.min_le_right _ _
  intro h
  have h' := congrArg BitVec.toNat h
  simp only [F32.ofFixed, F32.ofScaled, F32.rne32, hz, decide_true, if_true, BitVec.toNat_ofNat] at h'
  omega

theorem expStep_meets (F : Nat) : ExpAtZero expStep ∧ ExpInRange expStep F ∧ ExpMonotone expStep F := by
  have hr : ∀ p, expStep p ≤ 0x3F800000#32 := by
    intro p; unfold expStep; split <;> decide
  refine ⟨rfl, fun j _ => hr _, fun j k hjk _ => ?_⟩
  rcases Nat.eq_zero_or_pos k with rfl | hk
  · obtain rfl : j = 0 := by omega
    exact BitVec.le_refl _
  · rw [show expStep (F32.ofFixed F (-(k : Int))) = 0#32 from if_neg (ofFixed_neg_ne_zero F k hk)]
    exact Nat.zero_le _

/-- The comparisons: two zeros, two finite numbers at the ends, and a NaN. -/
theorem witness_ArgmaxIsTheFirstMaximum_compare :
    F32.isFinite 0x80000000#32 = true ∧ F32.isFinite 0x00000000#32 = true ∧
    F32.isFinite 0xFF7FFFFF#32 = true ∧ F32.isFinite 0x7F7FFFFF#32 = true ∧
    F32.isNaN 0x7F800001#32 = true := by decide

/-- R11: -0.0 is not below +0.0, two negative numbers compare by their values, and a NaN compares with nothing. -/
theorem test_compare :
    F32.flt 0x80000000#32 0x00000000#32 = false ∧ F32.flt 0xBF800000#32 0xBF000000#32 = true ∧
    F32.fgt 0x3F800000#32 0x3F7FFFFF#32 = true ∧ F32.fgt 0x3F800000#32 0x7FC00000#32 = false := by decide

/-- An exponential with E0 and E1 and the two ends of the range of epsilon. -/
theorem witness_SoftmaxFallbackIsUnreachable :
    ExpAtZero expStep ∧ ExpInRange expStep 15 ∧ (15 : Nat) ≤ 15 ∧
    (List.replicate 10 (0x8000#16 : S16)).length = 10 ∧ (0#32 : F32) < 0x00000001#32 ∧
    (0x00000001#32 : F32) ≤ 0x3F800000#32 ∧ (0#32 : F32) < 0x3F800000#32 :=
  ⟨(expStep_meets 15).1, (expStep_meets 15).2.1, by decide, rfl, by decide, by decide, by decide⟩

/-- The logits of V-S6 and its two maxima, at the reference epsilon. -/
theorem witness_SoftmaxRangeAndOrder :
    ExpAtZero expStep ∧ ExpInRange expStep 8 ∧ ExpMonotone expStep 8 ∧ (8 : Nat) ≤ 15 ∧
    ([0#16, 0#16, 0#16, 256#16, 0#16, 0#16, 0#16, 256#16, 0#16, 0#16] : List S16).length = 10 ∧
    (0#32 : F32) < 0x35800000#32 ∧ (0x35800000#32 : F32) ≤ 0x3F800000#32 ∧ 7 < 10 ∧
    (∀ l ∈ ([0#16, 0#16, 0#16, 256#16, 0#16, 0#16, 0#16, 256#16, 0#16, 0#16] : List S16),
      l.toInt ≤ (([0#16, 0#16, 0#16, 256#16, 0#16, 0#16, 0#16, 256#16, 0#16, 0#16] : List S16).getD 7
        0#16).toInt) := by
  refine ⟨(expStep_meets 8).1, (expStep_meets 8).2.1, (expStep_meets 8).2.2, by decide, rfl, by decide,
    by decide, by decide, ?_⟩
  intro l hl
  simp only [List.mem_cons, List.not_mem_nil, or_false] at hl
  rcases hl with h | h | h | h | h | h | h | h | h | h <;> subst h <;> decide

/-- V-S1 and V-S2: all logits 0 and all logits -32768. -/
theorem witness_SoftmaxTranslationInvariant :
    (List.replicate 10 (0x8000#16 : S16)).map BitVec.toInt =
      (List.replicate 10 (0x0000#16 : S16)).map (fun l => l.toInt + (-32768)) := by decide

theorem witness_EqualLogitsGiveOneTenth :
    ∀ i, i < 10 → (written 0x8000#16 0#32).read16 .logit i = some 0x8000#16 :=
  fun i h => written_read16 _ _ .logit i h

/-! ### Witnesses: the forward pass, the notation, the boundary -/

theorem witness_ForwardIsTheSevenStages :
    (running .forward 1#4).status.busy = true ∧ (running .forward 1#4).status.cur = 0x0F#8 ∧
    (running .forward 1#4).status.stage = 1#4 ∧ (running .forward 1#4).events = [] := ⟨rfl, rfl, rfl, rfl⟩

theorem witness_ForwardEqualsSevenCommands : (written 5#16 0#32).status.busy = false := rfl

/-- Two loaded states that differ in an intermediate buffer, a register and the draws used. -/
theorem witness_ForwardDependsOnImageAndWeightsOnly :
    (running .forward 1#4).loaded ∧
    (running .forward 1#4).cfg = ({ running .forward 1#4 with p1 := [], qIn := 7#32, draws := 3 } : State).cfg ∧
    (∀ (sp : Space16) (i : Nat), sp.isWeight = true ∨ sp = .img →
      (running .forward 1#4).read16 sp i =
        ({ running .forward 1#4 with p1 := [], qIn := 7#32, draws := 3 } : State).read16 sp i) ∧
    ({ running .forward 1#4 with p1 := [], qIn := 7#32, draws := 3 } : State).status.busy = true ∧
    ({ running .forward 1#4 with p1 := [], qIn := 7#32, draws := 3 } : State).status.cur = 0x0F#8 ∧
    ({ running .forward 1#4 with p1 := [], qIn := 7#32, draws := 3 } : State).status.stage = 1#4 ∧
    ({ running .forward 1#4 with p1 := [], qIn := 7#32, draws := 3 } : State).events = [] := by
  refine ⟨running_loaded _ _, rfl, ?_, rfl, rfl, rfl, rfl⟩
  intro sp i h
  cases sp <;> first | rfl | (rcases h with h | h <;> cases h)

theorem witness_AllZeroForwardIsUniform :
    (running .forward 1#4).status.busy = true ∧ (running .forward 1#4).status.cur = 0x0F#8 ∧
    (running .forward 1#4).status.stage = 1#4 ∧ (running .forward 1#4).events = [] ∧
    ∀ (sp : Space16) (i : Nat), sp.isWeight = true ∨ sp = .img → i < sp.size →
      (running .forward 1#4).read16 sp i = some 0#16 :=
  ⟨rfl, rfl, rfl, rfl, fun sp i _ h => running_read16 _ _ sp i h⟩

theorem witness_RunLineCompletes : State.reset.status.busy = false ∧ Instr.quant ≠ .forward := by decide

/-- A weight with a value, and a NaN. -/
theorem witness_QloadStoresTheQuantizedWeight :
    State.reset.status.busy = false ∧ 255999 < Space16.size .wF1 ∧
    quantize State.reset.cfg.quantTie State.reset.cfg.F.val 0x40490FD0#32 = some 0x0324#16 ∧
    F32.isFinite 0x7FC00000#32 = false := by decide

theorem witness_WeightLayoutPairsIndices :
    399 < 400 ∧ 39 < 40 ∧ 3 < 4 ∧ 39 < conv2Shape.K ∧ 19 < conv2Shape.Z ∧ 4 < conv2Shape.KH ∧
    4 < conv2Shape.KW ∧ 9 < 10 := by decide

theorem witness_NormalizedPixelRange : (14 : Nat) ≤ 14 ∧ (255#8 : BitVec 8) = 255#8 := by decide

theorem witness_PlatformByteView : (Element.s16 0x1234#16).bytes = [0x34#8, 0x12#8] := by decide

end Sys2Proof.Tests
end

section
/-! What every command and every step keeps: the build parameters (R4, R7), IMG and the weight memories (R21, R22). -/

namespace Sys2Proof.Machine

/-! ### The stages and the commands -/

/-- The 16-bit spaces that some stage writes (R88). -/
def stageOutputs : List Space16 := [.c1, .p1, .c2, .p2, .h1, .logit]

theorem not_mem_stageOutputs {sp : Space16} :
    sp ∉ stageOutputs ↔ sp.isWeight = true ∨ sp = .img := by
  cases sp <;> decide

theorem IsStage.cfg_eq {n : StageId} {f : State → State} (h : IsStage n f) (s : State) :
    (f s).cfg = s.cfg := by
  cases h with
  | nop => rfl
  | conv1 => exact conv1Body_cfg s
  | pool1 => exact pool1Body_cfg s
  | conv2 => exact conv2Body_cfg s
  | pool2 => exact pool2Body_cfg s
  | fc1 => exact fc1Body_cfg s
  | fc2 => exact fc2Body_cfg s
  | softmax => exact softmaxBody_cfg s
  | argmax => exact argmaxBody_cfg s
  | quant => exact quantBody_cfg s
  | dequant => exact dequantBody_cfg s

/-- The six memory stages write their own output space, the others no 16-bit space at all. -/
theorem IsStage.mem_eq {n : StageId} {f : State → State} (h : IsStage n f) (s : State) {sp : Space16}
    (hsp : sp ∉ stageOutputs) : (f s).mem sp = s.mem sp := by
  simp only [stageOutputs, List.mem_cons, List.not_mem_nil, or_false, not_or] at hsp
  obtain ⟨hc1, hp1, hc2, hp2, hh1, hlogit⟩ := hsp
  cases h with
  | nop => rfl
  | conv1 => exact conv1Body_mem_other s hc1
  | pool1 => exact pool1Body_mem_other s hp1
  | conv2 => exact conv2Body_mem_other s hc2
  | pool2 => exact pool2Body_mem_other s hp2
  | fc1 => exact fc1Body_mem_other s hh1
  | fc2 => exact fc2Body_mem_other s hlogit
  | softmax => exact softmaxBody_mem s sp
  | argmax => exact argmaxBody_mem s sp
  | quant => exact quantBody_mem s sp
  | dequant => exact dequantBody_mem s sp

/-- All that a command can answer as a next state: FORWARD performs the stage that STAGE holds, every other
command its own stage, which ends it (R191, R195). -/
theorem exec_cases {i : Instr} {s t : State} (h : exec i s = .next t) :
    (i = .forward ∧ isForwardStage s.status.stage = true ∧
      ∃ f, IsStage s.status.stage f ∧ t = (f s).endStage 7#4) ∨
    (i ≠ .forward ∧ ∃ f, IsStage i.firstStage f ∧ t = (f s).complete) := by
  by_cases hi : i = .forward
  · subst hi
    have hstage : isForwardStage s.status.stage = true := by
      by_contra hn
      simp [exec, execForward, hn] at h
    obtain ⟨b, hb, hexec⟩ := exec_forward hstage
    obtain ⟨f, hf, rfl⟩ := stageBody_cases hb
    exact .inl ⟨rfl, hstage, f, hf, Host.Outcome.next.inj (h.symm.trans hexec)⟩
  · obtain ⟨b, hb, hexec⟩ := exec_singleStage hi s
    obtain ⟨f, hf, rfl⟩ := stageBody_cases hb
    exact .inr ⟨hi, f, hf, Host.Outcome.next.inj (h.symm.trans hexec)⟩

theorem exec_cfg {i : Instr} {s t : State} (h : exec i s = .next t) : t.cfg = s.cfg := by
  obtain ⟨-, -, f, hf, rfl⟩ | ⟨-, f, hf, rfl⟩ := exec_cases h
  · rw [State.endStage_cfg, hf.cfg_eq]
  · rw [State.complete_cfg, hf.cfg_eq]

theorem exec_mem_eq {i : Instr} {s t : State} {sp : Space16} (h : exec i s = .next t)
    (hsp : sp ∉ stageOutputs) : t.mem sp = s.mem sp := by
  obtain ⟨-, -, f, hf, rfl⟩ | ⟨-, f, hf, rfl⟩ := exec_cases h
  · rw [State.endStage_mem, hf.mem_eq s hsp]
  · rw [State.complete_mem, hf.mem_eq s hsp]

/-- All that a turn of the core can answer as a next state: nothing happens while idle, and while busy the command
in CUR has a step (R191, R230). -/
theorem coreTurn_cases {s t : State} (h : coreTurn s = .next t) :
    (s.status.busy = false ∧ t = s) ∨
    (s.status.busy = true ∧ ∃ i, decode s.commandWord = .ok i ∧ exec i s = .next t) := by
  cases hb : s.status.busy with
  | false => exact .inl ⟨rfl, (Host.Outcome.next.inj ((coreTurn_idle hb).symm.trans h)).symm⟩
  | true =>
    cases hd : decode s.commandWord with
    | ok i => exact .inr ⟨rfl, i, rfl, by simpa [coreTurn, hb, hd] using h⟩
    | error e => simp [coreTurn, hb, hd] at h

theorem coreTurn_cfg {s t : State} (h : coreTurn s = .next t) : t.cfg = s.cfg := by
  obtain ⟨-, rfl⟩ | ⟨-, i, -, hexec⟩ := coreTurn_cases h
  · rfl
  · exact exec_cfg hexec

/-! ### The host's moves -/

@[simp] theorem State.write16_cfg (s : State) (sp : Space16) (i : Nat) (v : S16) :
    (s.write16 sp i v).cfg = s.cfg := State.setMem_cfg s sp _

@[simp] theorem State.resetBlock_cfg (s : State) : s.resetBlock.cfg = s.cfg := rfl

@[simp] theorem State.hostRead16_cfg (s : State) (sp : Space16) (i : Nat) :
    (s.hostRead16 sp i).cfg = s.cfg := by
  unfold State.hostRead16
  split
  · rfl
  · split <;> rfl

@[simp] theorem State.hostReadProb_cfg (s : State) (i : Nat) : (s.hostReadProb i).cfg = s.cfg := by
  unfold State.hostReadProb
  split
  · rfl
  · split <;> rfl

@[simp] theorem State.hostReadCsr_cfg (s : State) (r : Csr) : (s.hostReadCsr r).cfg = s.cfg := by
  unfold State.hostReadCsr
  split <;> rfl

@[simp] theorem State.hostRead_cfg (s : State) (l : Location) : (s.hostRead l).cfg = s.cfg := by
  cases l with
  | mem16 sp i => exact State.hostRead16_cfg s sp i
  | prob i => exact State.hostReadProb_cfg s i
  | csr r => exact State.hostReadCsr_cfg s r

@[simp] theorem State.hostWrite16_cfg (s : State) (sp : Space16) (i : Nat) (v : S16) :
    (s.hostWrite16 sp i v).cfg = s.cfg := by
  unfold State.hostWrite16
  split
  · rfl
  · exact State.write16_cfg s sp i v

@[simp] theorem State.hostWriteProb_cfg (s : State) (i : Nat) (v : F32) :
    (s.hostWriteProb i v).cfg = s.cfg := by
  unfold State.hostWriteProb
  split <;> rfl

@[simp] theorem State.writeCmd_cfg (s : State) (w : U32) : (s.writeCmd w).cfg = s.cfg := by
  unfold State.writeCmd
  split
  · rfl
  · split <;> rfl

/-- The register CFG included: it is read-only (R26). -/
@[simp] theorem State.hostWriteCsr_cfg (s : State) (r : Csr) (w : U32) :
    (s.hostWriteCsr r w).cfg = s.cfg := by
  cases r with
  | cmd => exact State.writeCmd_cfg s w
  | qIn | dqIn => simp only [State.hostWriteCsr]; split <;> rfl
  | status | cfg | qOut | dqOut | amax => rfl

@[simp] theorem State.hostWait_cfg (s : State) : s.hostWait.cfg = s.cfg := by
  unfold State.hostWait
  split <;> exact State.hostReadCsr_cfg s .status

/-- All that a write of one element can answer as a next state: the value has the width of its element (R50, R54). -/
theorem State.hostWrite_cases {s t : State} {a : Addr} {l : Location} {v : Element}
    (h : s.hostWrite a l v = .next t) :
    (∃ sp i x, l = .mem16 sp i ∧ v = .s16 x ∧ t = s.hostWrite16 sp i x) ∨
    (∃ i x, l = .prob i ∧ v = .w32 x ∧ t = s.hostWriteProb i x) ∨
    (∃ r x, l = .csr r ∧ v = .w32 x ∧ t = s.hostWriteCsr r x) := by
  cases l <;> cases v <;> cases h
  case mem16.s16.refl sp i x => exact .inl ⟨sp, i, x, rfl, rfl, rfl⟩
  case prob.w32.refl i x => exact .inr (.inl ⟨i, x, rfl, rfl, rfl⟩)
  case csr.w32.refl r x => exact .inr (.inr ⟨r, x, rfl, rfl, rfl⟩)

theorem State.hostWrite_cfg {s t : State} {a : Addr} {l : Location} {v : Element}
    (h : s.hostWrite a l v = .next t) : t.cfg = s.cfg := by
  obtain ⟨sp, i, x, -, -, rfl⟩ | ⟨i, x, -, -, rfl⟩ | ⟨r, x, -, -, rfl⟩ := State.hostWrite_cases h
  · exact State.hostWrite16_cfg s sp i x
  · exact State.hostWriteProb_cfg s i x
  · exact State.hostWriteCsr_cfg s r x

/-- All that a move of the host can answer as a next state (R54, R86, R234). -/
theorem hostMove_cases {m : HostMove} {s t : State} (h : hostMove m s = .next t) :
    (∃ a l, m = .read a ∧ resolve a = some l ∧ t = s.hostRead l) ∨
    (∃ a l v, m = .write a v ∧ resolve a = some l ∧ s.hostWrite a l v = .next t) ∨
    (∃ a l, m = .writeBack a ∧ resolve a = some l ∧
      s.hostWrite a l (Element.toWidthOf s.rdata l) = .next t) ∨
    (m = .wait ∧ t = s.hostWait) ∨
    (m = .reset ∧ t = s.resetBlock) := by
  cases m with
  | read a =>
    cases hl : resolve a with
    | none => simp [hostMove, hl] at h
    | some l => exact .inl ⟨a, l, rfl, hl, by simpa [hostMove, hl] using h.symm⟩
  | write a v =>
    cases hl : resolve a with
    | none => simp [hostMove, hl] at h
    | some l => exact .inr (.inl ⟨a, l, v, rfl, hl, by simpa [hostMove, hl] using h⟩)
  | writeBack a =>
    cases hl : resolve a with
    | none => simp [hostMove, hl] at h
    | some l => exact .inr (.inr (.inl ⟨a, l, rfl, hl, by simpa [hostMove, hl] using h⟩))
  | wait => exact .inr (.inr (.inr (.inl ⟨rfl, (Host.Outcome.next.inj h).symm⟩)))
  | reset => exact .inr (.inr (.inr (.inr ⟨rfl, (Host.Outcome.next.inj h).symm⟩)))

theorem hostMove_cfg {m : HostMove} {s t : State} (h : hostMove m s = .next t) : t.cfg = s.cfg := by
  obtain ⟨a, l, -, -, rfl⟩ | ⟨a, l, v, -, -, hw⟩ | ⟨a, l, -, -, hw⟩ | ⟨-, rfl⟩ | ⟨-, rfl⟩ :=
    hostMove_cases h
  · exact State.hostRead_cfg s l
  · exact State.hostWrite_cfg hw
  · exact State.hostWrite_cfg hw
  · exact State.hostWait_cfg s
  · exact State.resetBlock_cfg s

/-! ### The step -/

/-- Whose turn a step was: the core's, by its entry in `events` or because none is left, or the host's. -/
theorem step_cases {s t : State} (h : step s = .next t) :
    (s.events = [] ∧ coreTurn s = .next t) ∨
    (∃ es, s.events = .core :: es ∧ coreTurn { s with events := es } = .next t) ∨
    (∃ m es, s.events = .host m :: es ∧ hostMove m { s with events := es } = .next t) := by
  rcases he : s.events with _ | ⟨m | _, es⟩
  · exact .inl ⟨rfl, (step_nil he).symm.trans h⟩
  · exact .inr (.inr ⟨m, es, rfl, (step_host he).symm.trans h⟩)
  · exact .inr (.inl ⟨es, rfl, (step_core he).symm.trans h⟩)

theorem step_cfg {s t : State} (h : step s = .next t) : t.cfg = s.cfg := by
  obtain ⟨-, hc⟩ | ⟨es, -, hc⟩ | ⟨m, es, -, hm⟩ := step_cases h
  · exact coreTurn_cfg hc
  · simpa using coreTurn_cfg hc
  · simpa using hostMove_cfg hm

/-- Settles O24: every agent's step keeps the build, and the spaces that some stage writes are neither IMG nor a
weight memory. -/
theorem buildAndWeightsNeverChange : Obligations.BuildAndWeightsNeverChange :=
  ⟨fun _ _ => step_cfg, fun _ _ _ _ h hsp => exec_mem_eq h (not_mem_stageOutputs.mpr hsp)⟩

end Sys2Proof.Machine
end

section
/-! The command word and the opcode: a word that decodes is the command's own word, and the opcode names the command
(R80, R81). -/

namespace Sys2Proof

@[simp] theorem decode_encode (i : Instr) : decode (encode i) = .ok i := by cases i <;> rfl

theorem encode_eq_append (i : Instr) : encode i = 0#24 ++ i.opcode := by cases i <;> rfl

/-- Two commands with one opcode have one word, and so are one command. -/
theorem Instr.opcode_injective : Function.Injective Instr.opcode := by
  intro i j h
  have hw : encode i = encode j := by rw [encode_eq_append, encode_eq_append, h]
  have hd := congrArg decode hw
  rw [decode_encode, decode_encode] at hd
  exact Except.ok.inj hd

theorem Instr.firstStage_le_lastStage (i : Instr) : i.firstStage ≤ i.lastStage := by
  cases i <;> decide

theorem mem_of_lookupOpcode {op : Opcode} {i : Instr} {rows : List (Opcode × Instr)}
    (h : lookupOpcode op rows = some i) : (op, i) ∈ rows := by
  induction rows with
  | nil => cases h
  | cons row rows ih =>
    obtain ⟨o, j⟩ := row
    rw [lookupOpcode] at h
    split at h
    next ho =>
      rw [← ho, ← Option.some.inj h]
      exact List.mem_cons_self
    next => exact List.mem_cons_of_mem _ (ih h)

theorem opcode_of_mem_opcodeTable : ∀ row ∈ opcodeTable, row.1 = row.2.opcode := by decide

theorem decode_eq_ok {w : U32} {i : Instr} (h : decode w = .ok i) :
    zeroField w = 0#24 ∧ opcodeField w = i.opcode := by
  rw [decode] at h
  split at h
  next hz =>
    split at h
    next j hj =>
      cases h
      exact ⟨hz, opcode_of_mem_opcodeTable _ (mem_of_lookupOpcode hj)⟩
    next => cases h
  next => cases h

theorem zeroField_append_opcodeField (w : U32) : zeroField w ++ opcodeField w = w :=
  (BitVec.extractLsb'_append_extractLsb'_eq_extractLsb' (start₂ := 8) (start₁ := 0) (len₁ := 8) rfl).trans
    BitVec.extractLsb'_eq_self

theorem encode_of_decode {w : U32} {i : Instr} (h : decode w = .ok i) : w = encode i := by
  obtain ⟨hz, hop⟩ := decode_eq_ok h
  rw [← zeroField_append_opcodeField w, hz, hop, encode_eq_append]

/-- The command that the core runs is the one whose opcode stands in CUR (R27). -/
theorem Machine.State.cur_of_decode {s : Machine.State} {i : Instr} (h : decode s.commandWord = .ok i) :
    s.status.cur = i.opcode := by
  have hcur : opcodeField s.commandWord = s.status.cur := by
    simp [opcodeField, Machine.State.commandWord, ← BitVec.setWidth_eq_extractLsb']
  exact hcur.symm.trans (decode_eq_ok h).2

end Sys2Proof
end

section
/-! What a stage leaves in STATUS, PROB and AMAX, and what a host move can do to the block. -/

namespace Sys2Proof.Machine

/-! ### The stages -/

theorem IsStage.status_eq {n : StageId} {f : State → State} (h : IsStage n f) (s : State) :
    (f s).status = s.status := by
  cases h with
  | nop => rfl
  | conv1 => exact conv1Body_status s
  | pool1 => exact pool1Body_status s
  | conv2 => exact conv2Body_status s
  | pool2 => exact pool2Body_status s
  | fc1 => exact fc1Body_status s
  | fc2 => exact fc2Body_status s
  | softmax => exact softmaxBody_status s
  | argmax => exact argmaxBody_status s
  | quant => exact quantBody_status s
  | dequant => exact dequantBody_status s

/-- All that a turn of the core does to STATUS: nothing while idle; while busy it ends a command, FORWARD at its
last stage included, or advances FORWARD from one of its earlier stages (R191). -/
theorem coreTurn_status {s t : State} (h : coreTurn s = .next t) :
    (s.status.busy = false ∧ t.status = s.status) ∨
    (s.status.busy = true ∧ t.status = s.status.complete) ∨
    (s.status.busy = true ∧ s.status.cur = Instr.opcode .forward ∧ 1#4 ≤ s.status.stage ∧
      s.status.stage < 7#4 ∧ t.status = s.status.advance) := by
  obtain ⟨hb, rfl⟩ | ⟨hb, i, hd, hexec⟩ := coreTurn_cases h
  · exact .inl ⟨hb, rfl⟩
  obtain ⟨rfl, hstage, f, hf, rfl⟩ | ⟨-, f, hf, rfl⟩ := exec_cases hexec
  · rw [State.endStage_status, hf.status_eq, Status.endStage]
    split
    next => exact .inr (.inl ⟨hb, rfl⟩)
    next hne =>
      simp only [isForwardStage, Bool.and_eq_true, decide_eq_true_eq] at hstage
      exact .inr (.inr ⟨hb, State.cur_of_decode hd, by bv_omega, by bv_omega, rfl⟩)
  · rw [State.complete_status, hf.status_eq]
    exact .inr (.inl ⟨hb, rfl⟩)

/-! ### The host's reads -/

/-- The two states hold the same block: build, memories, registers and STATUS. What is used of the unspecified
values, what the host is still to do and what it has read may differ. -/
def State.sameBlock (s t : State) : Prop :=
  ∃ (d : Nat) (es : List Event) (v : Element), t = { s with draws := d, events := es, rdata := v }

theorem State.sameBlock_withEvents (s : State) (es : List Event) : s.sameBlock { s with events := es } :=
  ⟨s.draws, es, s.rdata, rfl⟩

theorem State.sameBlock.status_eq {s t : State} (h : s.sameBlock t) : t.status = s.status := by
  obtain ⟨d, es, v, rfl⟩ := h
  rfl

theorem State.sameBlock_answer (s : State) (v : Element) : s.sameBlock (s.answer v) :=
  ⟨s.draws, s.events, v, rfl⟩

theorem State.sameBlock_answerDraw16 (s : State) : s.sameBlock s.answerDraw16 :=
  ⟨s.draws + 1, s.events, .s16 (Config.draw16 s.draws), rfl⟩

theorem State.sameBlock_answerDraw32 (s : State) : s.sameBlock s.answerDraw32 :=
  ⟨s.draws + 1, s.events, .w32 (Config.draw32 s.draws), rfl⟩

/-- A host read changes nothing of the block, busy or not (R58, R60). -/
theorem State.sameBlock_hostRead (s : State) (l : Location) : s.sameBlock (s.hostRead l) := by
  cases l with
  | mem16 sp i =>
    rw [State.hostRead, State.hostRead16]
    split
    · exact s.sameBlock_answerDraw16
    · split
      · exact s.sameBlock_answer _
      · exact s.sameBlock_answerDraw16
  | prob i =>
    rw [State.hostRead, State.hostReadProb]
    split
    · exact s.sameBlock_answerDraw32
    · split
      · exact s.sameBlock_answer _
      · exact s.sameBlock_answerDraw32
  | csr r =>
    rw [State.hostRead, State.hostReadCsr]
    split
    · exact s.sameBlock_answerDraw32
    · exact s.sameBlock_answer _

/-- A poll of WAIT is a read of STATUS (R86). -/
theorem State.sameBlock_hostWait (s : State) : s.sameBlock s.hostWait := by
  obtain ⟨d, es, v, hread⟩ := s.sameBlock_hostRead (.csr .status)
  rw [State.hostRead] at hread
  rw [State.hostWait, hread]
  split
  · exact ⟨d, es, v, rfl⟩
  · exact ⟨d, _, v, rfl⟩

/-! ### The host's writes -/

/-- What a host write of the element `v` at `l` can do (R58, R60, R192, R207 to R209): while busy it is dropped and an
error recorded, a read-only register ignores it, and while idle it is stored, or taken as a command. -/
inductive HostWriteEffect (s : State) : Location → Element → State → Prop
  | dropped {l : Location} {v : Element} (c : ErrCode) (hbusy : s.status.busy = true)
      (hc : c = cmdWhileBusy ∨ c = writeWhileBusy) : HostWriteEffect s l v (s.raiseCmdError c)
  | ignored (r : Csr) (w : U32) : HostWriteEffect s (.csr r) (.w32 w) s
  | stored16 (sp : Space16) (i : Nat) (x : S16) :
      HostWriteEffect s (.mem16 sp i) (.s16 x) (s.write16 sp i x)
  | storedProb (i : Nat) (x : F32) : HostWriteEffect s (.prob i) (.w32 x) (s.writeProb i x)
  | storedQIn (w : U32) : HostWriteEffect s (.csr .qIn) (.w32 w) { s with qIn := w }
  | storedDqIn (w : U32) : HostWriteEffect s (.csr .dqIn) (.w32 w) { s with dqIn := w.setWidth 16 }
  | accepted (i : Instr) (hidle : s.status.busy = false) :
      HostWriteEffect s (.csr .cmd) (.w32 (encode i)) (s.accept i)
  | illegal (w : U32) : HostWriteEffect s (.csr .cmd) (.w32 w) (s.raiseCmdError illegalCmd)

theorem State.hostWrite16_effect (s : State) (sp : Space16) (i : Nat) (x : S16) :
    HostWriteEffect s (.mem16 sp i) (.s16 x) (s.hostWrite16 sp i x) := by
  rw [State.hostWrite16]
  split
  next hb => exact .dropped _ hb (.inr rfl)
  next => exact .stored16 sp i x

theorem State.hostWriteProb_effect (s : State) (i : Nat) (x : F32) :
    HostWriteEffect s (.prob i) (.w32 x) (s.hostWriteProb i x) := by
  rw [State.hostWriteProb]
  split
  next hb => exact .dropped _ hb (.inr rfl)
  next => exact .storedProb i x

theorem State.writeCmd_effect (s : State) (w : U32) :
    HostWriteEffect s (.csr .cmd) (.w32 w) (s.writeCmd w) := by
  rw [State.writeCmd]
  split
  next hb => exact .dropped _ hb (.inl rfl)
  next hb =>
    split
    next i hd =>
      rw [encode_of_decode hd]
      exact .accepted i (by simpa using hb)
    next => exact .illegal w

theorem State.hostWriteCsr_effect (s : State) (r : Csr) (w : U32) :
    HostWriteEffect s (.csr r) (.w32 w) (s.hostWriteCsr r w) := by
  cases r with
  | cmd => exact s.writeCmd_effect w
  | qIn =>
    rw [State.hostWriteCsr]
    split
    next hb => exact .dropped _ hb (.inr rfl)
    next => exact .storedQIn w
  | dqIn =>
    rw [State.hostWriteCsr]
    split
    next hb => exact .dropped _ hb (.inr rfl)
    next => exact .storedDqIn w
  | status | cfg | qOut | dqOut | amax => exact .ignored _ w

theorem State.hostWrite_effect {s t : State} {a : Addr} {l : Location} {v : Element}
    (h : s.hostWrite a l v = .next t) : HostWriteEffect s l v t := by
  obtain ⟨sp, i, x, rfl, rfl, rfl⟩ | ⟨i, x, rfl, rfl, rfl⟩ | ⟨r, x, rfl, rfl, rfl⟩ :=
    State.hostWrite_cases h
  · exact s.hostWrite16_effect sp i x
  · exact s.hostWriteProb_effect i x
  · exact s.hostWriteCsr_effect r x

/-- The move `m` writes the element `v` to the address `a`: the value itself, or the value last read, made to fit the
location `l` that `a` names (R87, log 7). -/
def State.writes (s : State) (m : HostMove) (a : Addr) (l : Location) (v : Element) : Prop :=
  m = .write a v ∨ (m = .writeBack a ∧ v = Element.toWidthOf s.rdata l)

/-- All that a move of the host can do to the block: nothing, a reset, or what a write of one element does. -/
theorem hostMove_effect {m : HostMove} {s t : State} (h : hostMove m s = .next t) :
    s.sameBlock t ∨ t = s.resetBlock ∨
    ∃ a l v, s.writes m a l v ∧ resolve a = some l ∧ HostWriteEffect s l v t := by
  obtain ⟨a, l, -, -, rfl⟩ | ⟨a, l, v, rfl, hl, hw⟩ | ⟨a, l, rfl, hl, hw⟩ | ⟨-, rfl⟩ | ⟨-, rfl⟩ :=
    hostMove_cases h
  · exact .inl (s.sameBlock_hostRead l)
  · exact .inr (.inr ⟨a, l, v, .inl rfl, hl, State.hostWrite_effect hw⟩)
  · exact .inr (.inr ⟨a, l, _, .inr ⟨rfl, rfl⟩, hl, State.hostWrite_effect hw⟩)
  · exact .inl s.sameBlock_hostWait
  · exact .inr (.inl rfl)

end Sys2Proof.Machine
end

section
/-! The invariant of the machine (R27, R31, R33, R50, R191, R206), in two halves: what it says of STATUS, and what it
says of the memories and of AMAX. -/

namespace Sys2Proof.Machine

/-! ### The half about STATUS -/

/-- The clauses of the invariant that speak of STATUS. -/
structure Status.Inv (t : Status) : Prop where
  notBusyAndDone : ¬(t.busy = true ∧ t.done = true)
  idleStage : t.busy = false → t.stage = 0#4
  noErrCode : t.err = false → t.errCode = 0#4
  errCodes : t.err = true →
    t.errCode = illegalCmd ∨ t.errCode = cmdWhileBusy ∨ t.errCode = writeWhileBusy
  curLegal : ∃ i : Instr, t.cur = i.opcode
  busyStage : ∀ i : Instr, t.busy = true → t.cur = i.opcode → i.firstStage ≤ t.stage ∧ t.stage ≤ i.lastStage

theorem Status.reset_inv : Status.reset.Inv where
  notBusyAndDone := by decide
  idleStage _ := rfl
  noErrCode _ := rfl
  errCodes h := by cases h
  curLegal := ⟨.nop, rfl⟩
  busyStage _ h := by cases h

theorem Status.Inv.accept {t : Status} (h : t.Inv) (i : Instr) : (t.accept i).Inv where
  notBusyAndDone := by simp
  idleStage hb := by cases hb
  noErrCode := h.noErrCode
  errCodes := h.errCodes
  curLegal := ⟨i, rfl⟩
  busyStage j _ hj := by
    obtain rfl : i = j := Instr.opcode_injective hj
    exact ⟨BitVec.le_refl _, i.firstStage_le_lastStage⟩

theorem Status.Inv.complete {t : Status} (h : t.Inv) : t.complete.Inv where
  notBusyAndDone := by simp
  idleStage _ := rfl
  noErrCode := h.noErrCode
  errCodes := h.errCodes
  curLegal := h.curLegal
  busyStage _ hb := by cases hb

/-- FORWARD alone has a stage after another, and its stages are 1 to 7 (R33, R88). -/
theorem Status.Inv.advance {t : Status} (h : t.Inv) (hbusy : t.busy = true)
    (hcur : t.cur = Instr.opcode .forward) (h1 : 1#4 ≤ t.stage) (h7 : t.stage < 7#4) : t.advance.Inv where
  notBusyAndDone := h.notBusyAndDone
  idleStage hb := by rw [Status.advance_busy, hbusy] at hb; cases hb
  noErrCode := h.noErrCode
  errCodes := h.errCodes
  curLegal := h.curLegal
  busyStage i _ hi := by
    obtain rfl : Instr.forward = i := Instr.opcode_injective (hcur.symm.trans hi)
    show 1#4 ≤ t.stage + 1#4 ∧ t.stage + 1#4 ≤ 7#4
    bv_omega

theorem Status.Inv.raiseErr {t : Status} (h : t.Inv) {c : ErrCode}
    (hc : c = illegalCmd ∨ c = cmdWhileBusy ∨ c = writeWhileBusy) : (t.raiseErr c).Inv where
  notBusyAndDone := h.notBusyAndDone
  idleStage := h.idleStage
  noErrCode he := by cases he
  errCodes _ := by
    rw [Status.raiseErr_errCode]
    split
    next he => exact h.errCodes he
    next => exact hc
  curLegal := h.curLegal
  busyStage := h.busyStage

/-! ### The half about memories and AMAX -/

/-- The clauses of the invariant that speak of the memories and of AMAX. -/
structure State.DataInv (s : State) : Prop where
  memWf : ∀ sp : Space16, Memory.wf sp.size (s.mem sp) = true
  probWf : Memory.wf numClasses s.prob = true
  amaxRange : s.amax.toNat ≤ 9

theorem State.inv_iff {s : State} : s.Inv ↔ s.status.Inv ∧ s.DataInv :=
  ⟨fun h => ⟨⟨h.notBusyAndDone, h.idleStage, h.noErrCode, h.errCodes, h.curLegal, h.busyStage⟩,
      ⟨h.memWf, h.probWf, h.amaxRange⟩⟩,
    fun ⟨hs, hd⟩ => ⟨hd.memWf, hd.probWf, hs.notBusyAndDone, hs.idleStage, hs.noErrCode, hs.errCodes,
      hs.curLegal, hs.busyStage, hd.amaxRange⟩⟩

theorem State.reset_dataInv : State.reset.DataInv where
  memWf := State.reset_mem_wf
  probWf := State.reset_prob_wf
  amaxRange := by decide

theorem State.DataInv.of_mem_wf {s t : State} (h : s.DataInv)
    (hmem : ∀ sp, Memory.wf sp.size (t.mem sp) = true) (hprob : t.prob = s.prob) (hamax : t.amax = s.amax) :
    t.DataInv where
  memWf := hmem
  probWf := by rw [hprob]; exact h.probWf
  amaxRange := by rw [hamax]; exact h.amaxRange

/-- The data half looks at the sixteen memories and AMAX alone. -/
theorem State.DataInv.congr {s t : State} (h : s.DataInv) (hmem : ∀ sp, t.mem sp = s.mem sp)
    (hprob : t.prob = s.prob) (hamax : t.amax = s.amax) : t.DataInv :=
  h.of_mem_wf (fun sp => by rw [hmem]; exact h.memWf sp) hprob hamax

/-- The scan of argmax answers its first candidate or an index it has visited. -/
theorem argmaxFrom_lt {best i : Nat} (v : F32) (ps : List F32) (h : best < i) :
    argmaxFrom best v i ps < i + ps.length := by
  induction ps generalizing best i v with
  | nil => simpa [argmaxFrom] using h
  | cons p ps ih =>
    rw [argmaxFrom, List.length_cons]
    split
    · have := ih p (Nat.lt_add_one i)
      omega
    · have := ih v (h.trans (Nat.lt_add_one i))
      omega

theorem argmax_lt_length {P : List F32} (h : 0 < P.length) : argmax P < P.length := by
  cases P with
  | nil => cases h
  | cons p ps =>
    have := argmaxFrom_lt p ps Nat.zero_lt_one
    simpa [argmax, Nat.add_comm] using this

theorem State.probs_length {s : State} {P : List F32} (h : s.probs = some P) : P.length = numClasses := by
  have hlen := congrArg List.length (map_some_of_allSome h)
  simpa using hlen.symm

/-- Both an index that argmax answers and one drawn in its place are below 10 (R31, R65). -/
theorem argmaxBody_amax_le (s : State) : (argmaxBody s).amax.toNat ≤ 9 := by
  rw [argmaxBody, State.setAmax_amax, BitVec.toNat_ofNat]
  refine le_trans (Nat.mod_le _ _) ?_
  cases hP : s.probs with
  | none => exact Nat.le_of_lt_succ (Config.drawClass s.draws).isLt
  | some P =>
    have hlen : P.length = 10 := State.probs_length hP
    have := argmax_lt_length (P := P) (by omega)
    show argmax P ≤ 9
    omega

/-- Each stage fills one memory in canonical form or writes one register. -/
theorem State.DataInv.stage {s : State} (h : s.DataInv) {n : StageId} {f : State → State}
    (hf : IsStage n f) : (f s).DataInv := by
  cases hf with
  | nop => exact h
  | conv1 => exact h.of_mem_wf (conv1Body_wf s h.memWf) (conv1Body_prob s) (conv1Body_amax s)
  | pool1 => exact h.of_mem_wf (pool1Body_wf s h.memWf) (pool1Body_prob s) (pool1Body_amax s)
  | conv2 => exact h.of_mem_wf (conv2Body_wf s h.memWf) (conv2Body_prob s) (conv2Body_amax s)
  | pool2 => exact h.of_mem_wf (pool2Body_wf s h.memWf) (pool2Body_prob s) (pool2Body_amax s)
  | fc1 => exact h.of_mem_wf (fc1Body_wf s h.memWf) (fc1Body_prob s) (fc1Body_amax s)
  | fc2 => exact h.of_mem_wf (fc2Body_wf s h.memWf) (fc2Body_prob s) (fc2Body_amax s)
  | softmax =>
    exact ⟨fun sp => by rw [softmaxBody_mem]; exact h.memWf sp, softmaxBody_wf s,
      by rw [softmaxBody_amax]; exact h.amaxRange⟩
  | argmax =>
    exact ⟨fun sp => by rw [argmaxBody_mem]; exact h.memWf sp, by rw [argmaxBody_prob]; exact h.probWf,
      argmaxBody_amax_le s⟩
  | quant => exact h.congr (quantBody_mem s) (quantBody_prob s) (quantBody_amax s)
  | dequant => exact h.congr (dequantBody_mem s) (dequantBody_prob s) (dequantBody_amax s)

/-! ### Every step keeps it -/

theorem exec_dataInv {i : Instr} {s t : State} (hs : s.DataInv) (h : exec i s = .next t) : t.DataInv := by
  obtain ⟨-, -, f, hf, rfl⟩ | ⟨-, f, hf, rfl⟩ := exec_cases h
  · exact (hs.stage hf).congr (State.endStage_mem _ _) rfl rfl
  · exact (hs.stage hf).congr (State.complete_mem _) rfl rfl

theorem coreTurn_dataInv {s t : State} (hs : s.DataInv) (h : coreTurn s = .next t) : t.DataInv := by
  obtain ⟨-, rfl⟩ | ⟨-, i, -, hexec⟩ := coreTurn_cases h
  · exact hs
  · exact exec_dataInv hs hexec

theorem coreTurn_statusInv {s t : State} (hs : s.status.Inv) (h : coreTurn s = .next t) : t.status.Inv := by
  obtain ⟨-, ht⟩ | ⟨-, ht⟩ | ⟨hb, hcur, h1, h7, ht⟩ := coreTurn_status h
  · rw [ht]; exact hs
  · rw [ht]; exact hs.complete
  · rw [ht]; exact hs.advance hb hcur h1 h7

theorem State.sameBlock.inv {s t : State} (h : s.sameBlock t) (hs : s.Inv) : t.Inv := by
  obtain ⟨hstatus, hdata⟩ := State.inv_iff.mp hs
  obtain ⟨d, es, v, rfl⟩ := h
  exact State.inv_iff.mpr ⟨hstatus, hdata.congr (fun sp => by cases sp <;> rfl) rfl rfl⟩

theorem State.resetBlock_inv (s : State) : s.resetBlock.Inv :=
  State.inv_iff.mpr ⟨Status.reset_inv,
    State.reset_dataInv.congr (fun sp => by cases sp <;> rfl) rfl rfl⟩

theorem State.raiseCmdError_inv {s : State} (hs : s.Inv) {c : ErrCode}
    (hc : c = illegalCmd ∨ c = cmdWhileBusy ∨ c = writeWhileBusy) : (s.raiseCmdError c).Inv := by
  obtain ⟨hstatus, hdata⟩ := State.inv_iff.mp hs
  exact State.inv_iff.mpr ⟨hstatus.raiseErr hc, hdata.congr (State.raiseCmdError_mem s c) rfl rfl⟩

/-- A write is to an element below its space's count, by the address it was made with (R54). -/
theorem HostWriteEffect.inv {s t : State} {a : Addr} {l : Location} {v : Element}
    (h : HostWriteEffect s l v t) (hl : resolve a = some l) (hs : s.Inv) : t.Inv := by
  obtain ⟨hstatus, hdata⟩ := State.inv_iff.mp hs
  cases h with
  | dropped c _ hc => exact State.raiseCmdError_inv hs (.inr hc)
  | ignored r w => exact hs
  | stored16 sp i x =>
    refine State.inv_iff.mpr ⟨by rw [State.write16, State.setMem_status]; exact hstatus, ?_⟩
    exact hdata.of_mem_wf (State.write16_wf s x (resolve_bound hl) hdata.memWf) (State.setMem_prob s sp _)
      (State.setMem_amax s sp _)
  | storedProb i x =>
    refine State.inv_iff.mpr ⟨hstatus, fun sp => ?_, ?_, hdata.amaxRange⟩
    · rw [State.writeProb_mem]; exact hdata.memWf sp
    · exact State.writeProb_wf s x (resolve_bound hl) hdata.probWf
  | storedQIn w | storedDqIn w =>
    exact State.inv_iff.mpr ⟨hstatus, hdata.congr (fun sp => by cases sp <;> rfl) rfl rfl⟩
  | accepted i _ => exact State.inv_iff.mpr ⟨hstatus.accept i, hdata.congr (State.accept_mem s i) rfl rfl⟩
  | illegal w => exact State.raiseCmdError_inv hs (.inl rfl)

theorem hostMove_inv {m : HostMove} {s t : State} (hs : s.Inv) (h : hostMove m s = .next t) : t.Inv := by
  obtain hsame | rfl | ⟨a, l, v, -, hl, heffect⟩ := hostMove_effect h
  · exact hsame.inv hs
  · exact s.resetBlock_inv
  · exact heffect.inv hl hs

theorem coreTurn_inv {s t : State} (hs : s.Inv) (h : coreTurn s = .next t) : t.Inv := by
  obtain ⟨hstatus, hdata⟩ := State.inv_iff.mp hs
  exact State.inv_iff.mpr ⟨coreTurn_statusInv hstatus h, coreTurn_dataInv hdata h⟩

theorem step_inv {s t : State} (hs : s.Inv) (h : step s = .next t) : t.Inv := by
  obtain ⟨-, hc⟩ | ⟨es, -, hc⟩ | ⟨m, es, -, hm⟩ := step_cases h
  · exact coreTurn_inv hs hc
  · exact coreTurn_inv ((s.sameBlock_withEvents es).inv hs) hc
  · exact hostMove_inv ((s.sameBlock_withEvents es).inv hs) hm

/-- Settles O21: a turn of the core completes or advances STATUS and fills one output space in canonical form; a host
move stores one element at a legal index, records an error, accepts a command or resets. -/
theorem stepKeepsTheInvariant : Obligations.StepKeepsTheInvariant := fun _ _ => step_inv

/-- Settles O20. -/
theorem resetMeetsTheInvariant : Obligations.ResetMeetsTheInvariant :=
  State.inv_iff.mpr ⟨Status.reset_inv, State.reset_dataInv⟩

end Sys2Proof.Machine
end

section
/-! Who raises BUSY, DONE and ERR (R35, R191, R192, R206). -/

namespace Sys2Proof

theorem csrOfIndex_eq_some {n : Nat} {r : Csr} (h : csrOfIndex n = some r) : n = r.index := by
  unfold csrOfIndex at h
  split at h <;> cases h <;> rfl

theorem resolve_csr_eq_some {a : Addr} {r : Csr} (h : resolve a = some (.csr r)) : a = r.addr := by
  obtain ⟨space, index⟩ := a
  rw [resolve] at h
  split at h
  next => split at h <;> cases h
  next =>
    split at h
    next hspace =>
      split at h
      next r' hr =>
        cases h
        rw [Csr.addr, ← csrOfIndex_eq_some hr, ← hspace]
      next => cases h
    next =>
      split at h
      next => split at h <;> cases h
      next => cases h

end Sys2Proof

namespace Sys2Proof.Machine

/-! ### BUSY -/

theorem HostWriteEffect.busy_rises {s t : State} {l : Location} {v : Element} (h : HostWriteEffect s l v t)
    (hs : s.status.busy = false) (ht : t.status.busy = true) :
    ∃ i : Instr, l = .csr .cmd ∧ v = .w32 (encode i) ∧ t.status.cur = i.opcode := by
  cases h with
  | accepted i _ => exact ⟨i, rfl, rfl, rfl⟩
  | stored16 sp i x =>
    rw [State.write16, State.setMem_status, hs] at ht
    cases ht
  | dropped | ignored | storedProb | storedQIn | storedDqIn | illegal => cases hs.symm.trans ht

theorem hostMove_busy_rises {m : HostMove} {s t : State} (h : hostMove m s = .next t)
    (hs : s.status.busy = false) (ht : t.status.busy = true) :
    ∃ i : Instr, t.status.cur = i.opcode ∧ s.writes m (Csr.addr .cmd) (.csr .cmd) (.w32 (encode i)) := by
  obtain hsame | rfl | ⟨a, l, v, hm, hl, heffect⟩ := hostMove_effect h
  · rw [hsame.status_eq, hs] at ht
    cases ht
  · cases ht
  · obtain ⟨i, rfl, rfl, hcur⟩ := heffect.busy_rises hs ht
    obtain rfl := resolve_csr_eq_some hl
    exact ⟨i, hcur, hm⟩

theorem coreTurn_busy_not_rises {s t : State} (h : coreTurn s = .next t) (hs : s.status.busy = false) :
    t.status.busy = false := by
  obtain ⟨-, ht⟩ | ⟨hb, -⟩ | ⟨hb, -⟩ := coreTurn_status h
  · rw [ht, hs]
  · cases hs.symm.trans hb
  · cases hs.symm.trans hb

theorem step_busy_rises {s t : State} (h : step s = .next t) (hs : s.status.busy = false)
    (ht : t.status.busy = true) :
    ∃ (i : Instr) (m : HostMove) (es : List Event), t.status.cur = i.opcode ∧ s.events = .host m :: es ∧
      s.writes m (Csr.addr .cmd) (.csr .cmd) (.w32 (encode i)) := by
  obtain ⟨-, hc⟩ | ⟨es, -, hc⟩ | ⟨m, es, he, hm⟩ := step_cases h
  · cases ht.symm.trans (coreTurn_busy_not_rises hc hs)
  · cases ht.symm.trans (coreTurn_busy_not_rises hc hs)
  · obtain ⟨i, hcur, hw⟩ := hostMove_busy_rises hm hs ht
    exact ⟨i, m, es, hcur, he, hw⟩

/-! ### DONE -/

theorem HostWriteEffect.done_not_rises {s t : State} {l : Location} {v : Element}
    (h : HostWriteEffect s l v t) (hs : s.status.done = false) : t.status.done = false := by
  cases h with
  | accepted i _ => rfl
  | stored16 sp i x => rw [State.write16, State.setMem_status, hs]
  | dropped | ignored | storedProb | storedQIn | storedDqIn | illegal => exact hs

theorem hostMove_done_not_rises {m : HostMove} {s t : State} (h : hostMove m s = .next t)
    (hs : s.status.done = false) : t.status.done = false := by
  obtain hsame | rfl | ⟨a, l, v, -, -, heffect⟩ := hostMove_effect h
  · rw [hsame.status_eq, hs]
  · rfl
  · exact heffect.done_not_rises hs

theorem coreTurn_done_rises {s t : State} (h : coreTurn s = .next t) (hs : s.status.done = false)
    (ht : t.status.done = true) : s.status.busy = true ∧ t.status.busy = false := by
  obtain ⟨-, hst⟩ | ⟨hb, hst⟩ | ⟨-, -, -, -, hst⟩ := coreTurn_status h
  · rw [hst, hs] at ht
    cases ht
  · exact ⟨hb, by rw [hst, Status.complete_busy]⟩
  · rw [hst, Status.advance_done, hs] at ht
    cases ht

theorem step_done_rises {s t : State} (h : step s = .next t) (hs : s.status.done = false)
    (ht : t.status.done = true) :
    s.status.busy = true ∧ t.status.busy = false ∧
      (s.events = [] ∨ ∃ es : List Event, s.events = .core :: es) := by
  obtain ⟨he, hc⟩ | ⟨es, he, hc⟩ | ⟨m, es, -, hm⟩ := step_cases h
  · obtain ⟨hb, hidle⟩ := coreTurn_done_rises hc hs ht
    exact ⟨hb, hidle, .inl he⟩
  · obtain ⟨hb, hidle⟩ := coreTurn_done_rises hc hs ht
    exact ⟨hb, hidle, .inr ⟨es, he⟩⟩
  · cases ht.symm.trans (hostMove_done_not_rises hm hs)

/-! ### ERR -/

theorem HostWriteEffect.err_rises {s t : State} {l : Location} {v : Element} (h : HostWriteEffect s l v t)
    (hs : s.status.err = false) (ht : t.status.err = true) : l = .csr .cmd ∨ s.status.busy = true := by
  cases h with
  | dropped c hbusy _ => exact .inr hbusy
  | illegal w => exact .inl rfl
  | accepted i _ => exact .inl rfl
  | stored16 sp i x =>
    rw [State.write16, State.setMem_status, hs] at ht
    cases ht
  | ignored | storedProb | storedQIn | storedDqIn => cases hs.symm.trans ht

theorem hostMove_err_rises {m : HostMove} {s t : State} (h : hostMove m s = .next t)
    (hs : s.status.err = false) (ht : t.status.err = true) :
    ∃ a l v, (a = Csr.addr .cmd ∨ s.status.busy = true) ∧ s.writes m a l v := by
  obtain hsame | rfl | ⟨a, l, v, hm, hl, heffect⟩ := hostMove_effect h
  · rw [hsame.status_eq, hs] at ht
    cases ht
  · cases ht
  · refine ⟨a, l, v, ?_, hm⟩
    obtain rfl | hbusy := heffect.err_rises hs ht
    · exact .inl (resolve_csr_eq_some hl)
    · exact .inr hbusy

theorem coreTurn_err {s t : State} (h : coreTurn s = .next t) : t.status.err = s.status.err := by
  obtain ⟨-, ht⟩ | ⟨-, ht⟩ | ⟨-, -, -, -, ht⟩ := coreTurn_status h
  · rw [ht]
  · rw [ht, Status.complete_err]
  · rw [ht, Status.advance_err]

theorem step_err_rises {s t : State} (h : step s = .next t) (hs : s.status.err = false)
    (ht : t.status.err = true) :
    ∃ (m : HostMove) (es : List Event) (a : Addr) (l : Location) (v : Element),
      (a = Csr.addr .cmd ∨ s.status.busy = true) ∧ s.events = .host m :: es ∧ s.writes m a l v := by
  obtain ⟨-, hc⟩ | ⟨es, -, hc⟩ | ⟨m, es, he, hm⟩ := step_cases h
  · cases ht.symm.trans ((coreTurn_err hc).trans hs)
  · cases ht.symm.trans ((coreTurn_err hc).trans hs)
  · obtain ⟨a, l, v, ha, hw⟩ := hostMove_err_rises hm hs ht
    exact ⟨m, es, a, l, v, ha, he, hw⟩

/-- Settles O8: among the core's turns only the end of a command raises a flag, and that is DONE; among the host's
moves only a write raises one. -/
theorem flagsRiseOnlyAsStated : Obligations.FlagsRiseOnlyAsStated := by
  intro s t h
  refine ⟨fun hs ht => ?_, step_done_rises h, fun hs ht => ?_⟩
  · obtain ⟨i, m, es, hcur, he, rfl | ⟨rfl, hv⟩⟩ := step_busy_rises h hs ht
    · exact ⟨i, es, hcur, .inl he⟩
    · exact ⟨i, es, hcur, .inr ⟨he, hv.symm⟩⟩
  · obtain ⟨m, es, a, l, v, ha, he, rfl | ⟨rfl, -⟩⟩ := step_err_rises h hs ht
    · exact ⟨a, es, ha, .inl ⟨v, he⟩⟩
    · exact ⟨a, es, ha, .inr he⟩

end Sys2Proof.Machine
end

section
/-! The control registers: where each field of STATUS stands, what each register reads as and takes (R25 to R31), and
what all hold after reset (R36). -/

namespace Sys2Proof.Machine

/-- The concatenation that the word of STATUS is, at a width that shows its parts. -/
theorem Status.extract_toWord (t : Status) (start len : Nat) :
    t.toWord.extractLsb' start len =
      BitVec.extractLsb' (n := 8 + 8 + 4 + 4 + 4 + 1 + 1 + 1 + 1) start len
        (0#8 ++ t.cur ++ 0#4 ++ t.errCode ++ t.stage ++ 0#1 ++ BitVec.ofBool t.err
          ++ BitVec.ofBool t.done ++ BitVec.ofBool t.busy) := rfl

/-- Settles O12: a field's bits lie above the parts to its right and within its own part, so they are cut out of that
part alone. -/
theorem statusWordLayout : Obligations.StatusWordLayout := by
  intro t
  simp only [Status.extract_toWord, BitVec.extractLsb'_append_eq_of_le,
    BitVec.extractLsb'_append_eq_of_add_le, Nat.reduceLeDiff, Nat.reduceSub, Nat.le_refl]
  simp

/-- Settles O18. -/
theorem resetValues : Obligations.ResetValues := by
  refine ⟨by decide, rfl, rfl, rfl, rfl, rfl, rfl, rfl, rfl, fun sp i => ?_, fun i => rfl⟩
  cases sp <;> rfl

/-! ### Reads and writes by the host -/

@[simp] theorem resolve_csrAddr (r : Csr) : resolve r.addr = some (.csr r) := by cases r <;> rfl

theorem State.hostReadCsr_idle {s : State} (r : Csr) (h : s.status.busy = false) :
    s.hostReadCsr r = s.answer (.w32 (s.csr r)) := by
  simp [State.hostReadCsr, h]

theorem step_readCsr_idle {s : State} {es : List Event} {r : Csr} (h : s.status.busy = false)
    (he : s.events = .host (.read r.addr) :: es) :
    step s = .next { s with events := es, rdata := .w32 (s.csr r) } := by
  have hread := State.hostReadCsr_idle (s := { s with events := es }) r h
  rw [step_host he, hostMove, resolve_csrAddr]
  simp only [State.hostRead, hread]
  cases r <;> rfl

theorem step_writeCsr {s : State} {es : List Event} {r : Csr} {w : U32}
    (he : s.events = .host (.write r.addr (.w32 w)) :: es) :
    step s = .next (State.hostWriteCsr { s with events := es } r w) := by
  rw [step_host he, hostMove, resolve_csrAddr]
  rfl

theorem hostWriteCsr_qIn_idle {s : State} (w : U32) (h : s.status.busy = false) :
    s.hostWriteCsr .qIn w = { s with qIn := w } := by
  simp [State.hostWriteCsr, h]

theorem hostWriteCsr_dqIn_idle {s : State} (w : U32) (h : s.status.busy = false) :
    s.hostWriteCsr .dqIn w = { s with dqIn := w.setWidth 16 } := by
  simp [State.hostWriteCsr, h]

theorem hostWriteCsr_readOnly {r : Csr} (s : State) (w : U32)
    (hr : r = .status ∨ r = .cfg ∨ r = .qOut ∨ r = .dqOut ∨ r = .amax) : s.hostWriteCsr r w = s := by
  obtain rfl | rfl | rfl | rfl | rfl := hr <;> rfl

/-- Settles O13. -/
theorem registerReadsAndWrites : Obligations.RegisterReadsAndWrites := by
  refine ⟨fun r => ⟨resolve_csrAddr r, by cases r <;> rfl⟩, fun s es r h he => ?_, fun s es w => ⟨?_, ?_, ?_⟩⟩
  · rw [step_readCsr_idle h he]
    cases r with
    | qOut | dqIn | amax => rw [State.csr, BitVec.setWidth_eq_append (by decide)]; rfl
    | cmd | status | cfg | qIn | dqOut => rfl
  · intro h he
    rw [step_writeCsr he]
    exact congrArg _ (hostWriteCsr_qIn_idle w h)
  · intro h he
    rw [step_writeCsr he, ← BitVec.setWidth_eq_extractLsb' (by decide)]
    exact congrArg _ (hostWriteCsr_dqIn_idle w h)
  · intro r hr he
    rw [step_writeCsr he, hostWriteCsr_readOnly _ w hr]

end Sys2Proof.Machine
end

section
/-! The indices that a stage reads lie in its input spaces (R51, R120, R135, R145). -/

namespace Sys2Proof

/-- One digit of a mixed-radix index. -/
theorem mul_add_lt_mul {a A b B : Nat} (ha : a < A) (hb : b < B) : a * B + b < A * B :=
  calc a * B + b < a * B + B := Nat.add_lt_add_left hb _
    _ = (a + 1) * B := (Nat.succ_mul a B).symm
    _ ≤ A * B := Nat.mul_le_mul_right B ha

theorem idx3_lt {C H W c y x : Nat} (hc : c < C) (hy : y < H) (hx : x < W) :
    idx3 H W c y x < C * H * W := mul_add_lt_mul (mul_add_lt_mul hc hy) hx

theorem idx4_lt {K Z KH KW k z ky kx : Nat} (hk : k < K) (hz : z < Z) (hky : ky < KH) (hkx : kx < KW) :
    idx4 Z KH KW k z ky kx < K * Z * KH * KW :=
  mul_add_lt_mul (mul_add_lt_mul (mul_add_lt_mul hk hz) hky) hkx

theorem idx2_lt {Out In k i : Nat} (hk : k < Out) (hi : i < In) : idx2 In k i < Out * In :=
  mul_add_lt_mul hk hi

/-- The three coordinates of a linear index of a tensor are below its extents. -/
theorem coordinates_lt {A B C i : Nat} (h : i < A * B * C) :
    i / (B * C) < A ∧ i / C % B < B ∧ i % C < C := by
  have hpos : 0 < A * B * C := Nat.zero_lt_of_lt h
  have hC : 0 < C := Nat.pos_of_mul_pos_left hpos
  have hB : 0 < B := Nat.pos_of_mul_pos_left (Nat.pos_of_mul_pos_right hpos)
  refine ⟨?_, Nat.mod_lt _ hB, Nat.mod_lt _ hC⟩
  rw [Nat.mul_assoc] at h
  exact (Nat.div_lt_iff_lt_mul (Nat.mul_pos hB hC)).mpr h

theorem ConvShape.mem_taps {g : ConvShape} {z ky kx : Nat} :
    (z, ky, kx) ∈ g.taps ↔ z < g.Z ∧ ky < g.KH ∧ kx < g.KW := by
  simp [ConvShape.taps]

/-- A window that starts at an output row ends within the input (R123). -/
theorem ConvShape.row_lt {g : ConvShape} {y ky : Nat} (hKH : g.KH ≤ g.H) (hy : y < g.OH) (hky : ky < g.KH) :
    y + ky < g.H := by
  rw [ConvShape.OH] at hy
  omega

theorem ConvShape.column_lt {g : ConvShape} {x kx : Nat} (hKW : g.KW ≤ g.W) (hx : x < g.OW)
    (hkx : kx < g.KW) : x + kx < g.W := by
  rw [ConvShape.OW] at hx
  omega

end Sys2Proof
end

section
/-! Over operands that all hold a value, every operator has a result (R65). -/

namespace Sys2Proof.Machine

/-- Every index below `n` holds a value. -/
def HoldsBelow (n : Nat) (f : Nat → Option S16) : Prop := ∀ i : Nat, i < n → ∃ v : S16, f i = some v

theorem State.written_iff {s : State} {sp : Space16} : s.written sp ↔ HoldsBelow sp.size (s.read16 sp) :=
  Iff.rfl

theorem allSome_of_forall {α : Type} {l : List (Option α)} (h : ∀ o ∈ l, ∃ a, o = some a) :
    ∃ as, allSome l = some as := by
  induction l with
  | nil => exact ⟨[], rfl⟩
  | cons o l ih =>
    obtain ⟨a, rfl⟩ := h o List.mem_cons_self
    obtain ⟨as, has⟩ := ih fun o ho => h o (List.mem_cons_of_mem _ ho)
    exact ⟨a :: as, by simp [allSome, has]⟩

theorem operandPair_of_some {x w : Option S16} (hx : ∃ a, x = some a) (hw : ∃ b, w = some b) :
    ∃ p, operandPair x w = some p := by
  obtain ⟨a, rfl⟩ := hx
  obtain ⟨b, rfl⟩ := hw
  exact ⟨(a, b), rfl⟩

theorem reduceOperands_of_some {F : Nat} {b : Option S16} {pairs : List (Option (S16 × S16))} {r : Bool}
    (hb : ∃ v, b = some v) (hp : ∀ o ∈ pairs, ∃ p, o = some p) :
    ∃ v, reduceOperands F b pairs r = some v := by
  obtain ⟨bias, rfl⟩ := hb
  obtain ⟨ps, hps⟩ := allSome_of_forall hp
  exact ⟨reduce F bias ps r, by simp [reduceOperands, hps]⟩

theorem conv2dAt_holds {F : Nat} {g : ConvShape} {inp ker bias : Nat → Option S16} (hg : g.wf = true)
    (hinp : HoldsBelow g.inputs inp) (hker : HoldsBelow g.weights ker) (hbias : HoldsBelow g.K bias) :
    HoldsBelow g.outputs (conv2dAt F g inp ker bias) := by
  intro i hi
  obtain ⟨hk, hy, hx⟩ := coordinates_lt hi
  simp only [ConvShape.wf, Bool.and_eq_true, decide_eq_true_eq] at hg
  obtain ⟨⟨⟨-, hKH⟩, -⟩, hKW⟩ := hg
  refine reduceOperands_of_some (hbias _ hk) fun o ho => ?_
  obtain ⟨⟨z, ky, kx⟩, ht, rfl⟩ := List.mem_map.mp ho
  obtain ⟨hz, hky, hkx⟩ := ConvShape.mem_taps.mp ht
  exact operandPair_of_some
    (hinp _ (idx3_lt hz (ConvShape.row_lt hKH hy hky) (ConvShape.column_lt hKW hx hkx)))
    (hker _ (idx4_lt hk hz hky hkx))

theorem max4_of_some {a b c d : Option S16} (ha : ∃ v, a = some v) (hb : ∃ v, b = some v)
    (hc : ∃ v, c = some v) (hd : ∃ v, d = some v) : ∃ v, max4 a b c d = some v := by
  obtain ⟨a, rfl⟩ := ha
  obtain ⟨b, rfl⟩ := hb
  obtain ⟨c, rfl⟩ := hc
  obtain ⟨d, rfl⟩ := hd
  exact ⟨_, rfl⟩

theorem maxpool2At_holds {g : PoolShape} {inp : Nat → Option S16} (hinp : HoldsBelow (g.C * g.H * g.W) inp) :
    HoldsBelow g.outputs (maxpool2At g inp) := by
  intro i hi
  obtain ⟨hc, hy, hx⟩ := coordinates_lt hi
  have element {r c : Nat} (hr : r < g.H) (hcol : c < g.W) := hinp _ (idx3_lt hc hr hcol)
  have hrow : 2 * (i / (g.W / 2) % (g.H / 2)) + 1 < g.H := by omega
  have hcolumn : 2 * (i % (g.W / 2)) + 1 < g.W := by omega
  exact max4_of_some (element (Nat.lt_of_succ_lt hrow) (Nat.lt_of_succ_lt hcolumn))
    (element (Nat.lt_of_succ_lt hrow) hcolumn) (element hrow (Nat.lt_of_succ_lt hcolumn))
    (element hrow hcolumn)

theorem dense_holds {F : Nat} {g : DenseShape} {x wt bias : Nat → Option S16} {r : Bool}
    (hx : HoldsBelow g.In x) (hwt : HoldsBelow (g.Out * g.In) wt) (hbias : HoldsBelow g.Out bias) :
    HoldsBelow g.Out (dense F g x wt bias r) := by
  intro k hk
  refine reduceOperands_of_some (hbias k hk) fun o ho => ?_
  obtain ⟨i, hi, rfl⟩ := List.mem_map.mp ho
  have hi : i < g.In := List.mem_range.mp hi
  exact operandPair_of_some (hx i hi) (hwt _ (idx2_lt hk hi))

end Sys2Proof.Machine
end

section
/-! A run of FORWARD from its acceptance: the seven stages in order (R190, R196). -/

namespace Sys2Proof.Machine

/-- The core's turn at one stage of FORWARD, with nothing left for the host to do. -/
theorem step_forwardStage_nil {n : StageId} {f : State → State} (hf : IsStage n f)
    (hn : isForwardStage n = true) (s : State) {t : Status} (v : Element) (hbusy : t.busy = true)
    (hcur : t.cur = Instr.opcode .forward) (hstage : t.stage = n) :
    step (s.withShell t [] v) = .next ((f s).withShell (t.endStage 7#4) [] v) := by
  have hcore : step (s.withShell t [.core] v) = coreTurn (s.withShell t [] v) := step_core rfl
  rw [step_nil rfl, ← hcore]
  exact step_forwardStage n hn hstage (hf.stageBody_eq s) hbusy hcur

/-- At a stage that is not the last, STAGE goes on to the next (R33, R191). -/
theorem runSteps_forwardStage {n : StageId} {f : State → State} (hf : IsStage n f)
    (hn : isForwardStage n = true) (n' : StageId) (hn' : n + 1#4 = n') (hlast : n ≠ 7#4) (k : Nat) (s : State)
    (t : Status) (v : Element) (hbusy : t.busy = true) (hcur : t.cur = Instr.opcode .forward) :
    runSteps (k + 1) (s.withShell { t with stage := n } [] v) =
      runSteps k ((f s).withShell { t with stage := n' } [] v) := by
  have hend : Status.endStage { t with stage := n } 7#4 = { t with stage := n' } := by
    rw [Status.endStage, if_neg hlast, Status.advance, hn']
  have hstep := step_forwardStage_nil hf hn s (t := { t with stage := n }) v hbusy hcur rfl
  rw [hend] at hstep
  exact runSteps_next hstep

theorem runSteps_forwardLast (k : Nat) (s : State) (t : Status) (v : Element) (hbusy : t.busy = true)
    (hcur : t.cur = Instr.opcode .forward) :
    runSteps (k + 1) (s.withShell { t with stage := 7#4 } [] v) =
      runSteps k ((softmaxBody s).withShell t.complete [] v) :=
  runSteps_next (step_forwardStage_nil .softmax (by decide) s v hbusy hcur rfl)

/-- The memories that a FORWARD leaves, over the shell of its end. -/
theorem runSteps_forward {s : State} (hbusy : s.status.busy = true)
    (hcur : s.status.cur = Instr.opcode .forward) (hstage : s.status.stage = 1#4) (hevents : s.events = []) :
    runSteps 7 s =
      .next ((softmaxBody (fc2Body (fc1Body (pool2Body (conv2Body (pool1Body (conv1Body s))))))).withShell
        s.status.complete [] s.rdata) := by
  have hshell : s = s.withShell { s.status with stage := 1#4 } [] s.rdata := by
    rw [← hstage, ← hevents]
    rfl
  calc runSteps 7 s = runSteps 7 (s.withShell { s.status with stage := 1#4 } [] s.rdata) :=
        congrArg (runSteps 7) hshell
    _ = _ := by
      rw [runSteps_forwardStage .conv1 (by decide) 2#4 rfl (by decide) 6 _ _ _ hbusy hcur,
        runSteps_forwardStage .pool1 (by decide) 3#4 rfl (by decide) 5 _ _ _ hbusy hcur,
        runSteps_forwardStage .conv2 (by decide) 4#4 rfl (by decide) 4 _ _ _ hbusy hcur,
        runSteps_forwardStage .pool2 (by decide) 5#4 rfl (by decide) 3 _ _ _ hbusy hcur,
        runSteps_forwardStage .fc1 (by decide) 6#4 rfl (by decide) 2 _ _ _ hbusy hcur,
        runSteps_forwardStage .fc2 (by decide) 7#4 rfl (by decide) 1 _ _ _ hbusy hcur,
        runSteps_forwardLast 0 _ _ _ hbusy hcur, runSteps_zero]

end Sys2Proof.Machine
end

section
/-! Two states that agree on the spaces a stage reads agree on the space it writes, whatever else differs (R38, R197). -/

namespace Sys2Proof.Machine

/-- The spaces of the list are wholly written, and both states hold the same elements there, in one build. -/
structure State.agreeOn (sps : List Space16) (s₁ s₂ : State) : Prop where
  cfg : s₁.cfg = s₂.cfg
  written : ∀ sp ∈ sps, s₁.written sp
  same : ∀ sp ∈ sps, s₁.read16 sp = s₂.read16 sp

/-- No draw enters an output space where the stage's function has a result at every index. -/
theorem State.read16_fill16_of_holds {s : State} {sp : Space16} {f : Nat → Option S16}
    (hf : HoldsBelow sp.size f) (i : Nat) :
    (s.fill16 sp f).read16 sp i = if i < sp.size then f i else none := by
  rw [State.read16_fill16, if_pos rfl]
  split
  next hi =>
    obtain ⟨v, hv⟩ := hf i hi
    rw [hv, Option.getD_some]
  next => rfl

theorem State.read16_fill16_other {s : State} {sp sp' : Space16} {f : Nat → Option S16} (h : sp' ≠ sp) :
    (s.fill16 sp f).read16 sp' = s.read16 sp' := by
  funext i
  rw [State.read16_fill16, if_neg h]

namespace State.agreeOn

variable {sps : List Space16} {s₁ s₂ : State}

theorem fill16 (h : agreeOn sps s₁ s₂) {sp : Space16} {f : Nat → Option S16} (hf : HoldsBelow sp.size f) :
    agreeOn (sp :: sps) (s₁.fill16 sp f) (s₂.fill16 sp f) where
  cfg := by rw [State.fill16_cfg, State.fill16_cfg, h.cfg]
  written sp' hmem := by
    rw [State.written_iff]
    by_cases hsp : sp' = sp
    · subst hsp
      intro i hi
      rw [State.read16_fill16_of_holds hf, if_pos hi]
      exact hf i hi
    · rw [State.read16_fill16_other hsp]
      exact h.written sp' (List.mem_of_ne_of_mem hsp hmem)
  same sp' hmem := by
    by_cases hsp : sp' = sp
    · subst hsp
      funext i
      rw [State.read16_fill16_of_holds hf, State.read16_fill16_of_holds hf]
    · rw [State.read16_fill16_other hsp, State.read16_fill16_other hsp]
      exact h.same sp' (List.mem_of_ne_of_mem hsp hmem)

theorem conv1 (h : agreeOn sps s₁ s₂) (himg : .img ∈ sps) (hw : .wC1 ∈ sps) (hb : .bC1 ∈ sps) :
    agreeOn (.c1 :: sps) (conv1Body s₁) (conv1Body s₂) := by
  rw [conv1Body, conv1Body, ← h.cfg, ← h.same _ himg, ← h.same _ hw, ← h.same _ hb]
  exact h.fill16 (conv2dAt_holds (by decide) (h.written _ himg) (h.written _ hw) (h.written _ hb))

theorem pool1 (h : agreeOn sps s₁ s₂) (hc1 : .c1 ∈ sps) :
    agreeOn (.p1 :: sps) (pool1Body s₁) (pool1Body s₂) := by
  rw [pool1Body, pool1Body, ← h.same _ hc1]
  exact h.fill16 (maxpool2At_holds (h.written _ hc1))

theorem conv2 (h : agreeOn sps s₁ s₂) (hp1 : .p1 ∈ sps) (hw : .wC2 ∈ sps) (hb : .bC2 ∈ sps) :
    agreeOn (.c2 :: sps) (conv2Body s₁) (conv2Body s₂) := by
  rw [conv2Body, conv2Body, ← h.cfg, ← h.same _ hp1, ← h.same _ hw, ← h.same _ hb]
  exact h.fill16 (conv2dAt_holds (by decide) (h.written _ hp1) (h.written _ hw) (h.written _ hb))

theorem pool2 (h : agreeOn sps s₁ s₂) (hc2 : .c2 ∈ sps) :
    agreeOn (.p2 :: sps) (pool2Body s₁) (pool2Body s₂) := by
  rw [pool2Body, pool2Body, ← h.same _ hc2]
  exact h.fill16 (maxpool2At_holds (h.written _ hc2))

theorem fc1 (h : agreeOn sps s₁ s₂) (hp2 : .p2 ∈ sps) (hw : .wF1 ∈ sps) (hb : .bF1 ∈ sps) :
    agreeOn (.h1 :: sps) (fc1Body s₁) (fc1Body s₂) := by
  rw [fc1Body, fc1Body, ← h.cfg, ← h.same _ hp2, ← h.same _ hw, ← h.same _ hb]
  exact h.fill16 (dense_holds (h.written _ hp2) (h.written _ hw) (h.written _ hb))

theorem fc2 (h : agreeOn sps s₁ s₂) (hh1 : .h1 ∈ sps) (hw : .wF2 ∈ sps) (hb : .bF2 ∈ sps) :
    agreeOn (.logit :: sps) (fc2Body s₁) (fc2Body s₂) := by
  rw [fc2Body, fc2Body, ← h.cfg, ← h.same _ hh1, ← h.same _ hw, ← h.same _ hb]
  exact h.fill16 (dense_holds (h.written _ hh1) (h.written _ hw) (h.written _ hb))

/-- With LOGIT wholly written, softmax has a result in both states, and it is one. -/
theorem softmax_readProb (h : agreeOn sps s₁ s₂) (hlogit : .logit ∈ sps) (i : Nat) :
    (softmaxBody s₁).readProb i = (softmaxBody s₂).readProb i := by
  have hlogits : s₁.logits = s₂.logits := by rw [State.logits, State.logits, h.same _ hlogit]
  have hresult : s₁.softmaxResult = s₂.softmaxResult := by
    rw [State.softmaxResult, State.softmaxResult, hlogits, h.cfg]
  obtain ⟨L, hL⟩ : ∃ L, s₁.logits = some L := by
    refine allSome_of_forall fun o ho => ?_
    obtain ⟨k, hk, rfl⟩ := List.mem_map.mp ho
    exact h.written _ hlogit k (List.mem_range.mp hk)
  obtain ⟨P, hP⟩ : ∃ P, s₁.softmaxResult = some P := ⟨_, by rw [State.softmaxResult, hL]⟩
  rw [softmaxBody_readProb, softmaxBody_readProb, ← hresult, hP]
  rfl

end State.agreeOn

/-- IMG and the weight memories, which FORWARD reads and does not write. -/
def forwardInputs : List Space16 := [.img, .wC1, .bC1, .wC2, .bC2, .wF1, .bF1, .wF2, .bF2]

theorem mem_forwardInputs {sp : Space16} : sp ∈ forwardInputs ↔ sp.isWeight = true ∨ sp = .img := by
  cases sp <;> decide

/-- Once the six memory stages have written their outputs, every space is one that both states agree on. -/
theorem mem_forwardSpaces (sp : Space16) :
    sp ∈ .logit :: .h1 :: .p2 :: .c2 :: .p1 :: .c1 :: forwardInputs := by
  cases sp <;> decide

theorem agreeOn_forwardInputs {s₁ s₂ : State} (hloaded : s₁.loaded) (hcfg : s₁.cfg = s₂.cfg)
    (hsame : ∀ (sp : Space16) (i : Nat), sp.isWeight = true ∨ sp = .img → s₁.read16 sp i = s₂.read16 sp i) :
    State.agreeOn forwardInputs s₁ s₂ where
  cfg := hcfg
  written sp hmem := by
    obtain ⟨himg, hweights⟩ := hloaded
    obtain hw | rfl := mem_forwardInputs.mp hmem
    · exact hweights sp hw
    · exact himg
  same sp hmem := funext fun i => hsame sp i (mem_forwardInputs.mp hmem)

/-- Settles O54: the seven stages carry the agreement on IMG and the weights from space to space, each reading spaces
that are wholly written and the same. -/
theorem forwardDependsOnImageAndWeightsOnly : Obligations.ForwardDependsOnImageAndWeightsOnly := by
  intro s₁ s₂ hloaded hcfg hsame hb₁ hc₁ hst₁ he₁ hb₂ hc₂ hst₂ he₂
  have h0 := agreeOn_forwardInputs hloaded hcfg hsame
  have h1 := h0.conv1 (by decide) (by decide) (by decide)
  have h2 := h1.pool1 (by decide)
  have h3 := h2.conv2 (by decide) (by decide) (by decide)
  have h4 := h3.pool2 (by decide)
  have h5 := h4.fc1 (by decide) (by decide) (by decide)
  have h6 := h5.fc2 (by decide) (by decide) (by decide)
  refine ⟨_, _, runSteps_forward hb₁ hc₁ hst₁ he₁, runSteps_forward hb₂ hc₂ hst₂ he₂, fun sp i => ?_,
    fun i => ?_⟩
  · rw [State.withShell_read16, State.withShell_read16, softmaxBody_read16, softmaxBody_read16]
    exact congrFun (h6.same sp (mem_forwardSpaces sp)) i
  · rw [State.withShell_readProb, State.withShell_readProb]
    exact h6.softmax_readProb (mem_forwardSpaces .logit) i

end Sys2Proof.Machine
end

section
/-! Which element an address names, space by space, and which host moves therefore exist (R21, R22, R50, R54). -/

namespace Sys2Proof

/-! ### Addresses -/

/-- The table of R21, R22 and R25 by space id. -/
theorem spaceId_cases (id : Nat) :
    (∃ sp : Space16, id = sp.id) ∨ id = probId ∨ id = csrId ∨ 16 < id := by
  by_cases h : id ≤ 16
  · interval_cases id
    exacts [.inl ⟨.img, rfl⟩, .inl ⟨.c1, rfl⟩, .inl ⟨.p1, rfl⟩, .inl ⟨.c2, rfl⟩, .inl ⟨.p2, rfl⟩,
      .inl ⟨.h1, rfl⟩, .inl ⟨.logit, rfl⟩, .inr (.inl rfl), .inl ⟨.wC1, rfl⟩, .inl ⟨.bC1, rfl⟩,
      .inl ⟨.wC2, rfl⟩, .inl ⟨.bC2, rfl⟩, .inl ⟨.wF1, rfl⟩, .inl ⟨.bF1, rfl⟩, .inl ⟨.wF2, rfl⟩,
      .inl ⟨.bF2, rfl⟩, .inr (.inr (.inl rfl))]
  · exact .inr (.inr (.inr (by omega)))

theorem Space16.id_ne_probId (sp : Space16) : sp.id ≠ probId := by cases sp <;> decide

theorem Space16.id_ne_csrId (sp : Space16) : sp.id ≠ csrId := by cases sp <;> decide

@[simp] theorem space16OfId_id (sp : Space16) : space16OfId sp.id = some sp := by cases sp <;> rfl

@[simp] theorem elementCount_id (sp : Space16) : elementCount sp.id = some sp.size := by
  cases sp <;> rfl

theorem resolve_space16Addr (sp : Space16) (i : Nat) :
    resolve (sp.addr i) = if i < sp.size then some (.mem16 sp i) else none := by
  by_cases hi : i < sp.size <;> simp [resolve, Space16.addr, sp.id_ne_probId, sp.id_ne_csrId, hi]

theorem resolve_probAddr (i : Nat) :
    resolve (probAddr i) = if i < numClasses then some (.prob i) else none := rfl

theorem resolve_csrSpace (i : Nat) :
    resolve { space := csrId, index := i } = (csrOfIndex i).map .csr := by
  cases h : csrOfIndex i <;> simp [resolve, h, csrId, probId]

/-- There are eight control registers (R25). -/
theorem isSome_csrOfIndex (i : Nat) : (csrOfIndex i).isSome = decide (i < 8) := by
  by_cases h : i < 8
  · interval_cases i <;> rfl
  · unfold csrOfIndex
    split <;> first | omega | simp [h]

theorem resolve_noSpace {id : Nat} (h : 16 < id) (i : Nat) : resolve { space := id, index := i } = none := by
  have hprob : id ≠ probId := by rw [probId]; omega
  have hcsr : id ≠ csrId := by rw [csrId]; omega
  have hmem : space16OfId id = none := by
    unfold space16OfId
    split <;> first | omega | rfl
  simp [resolve, hprob, hcsr, hmem]

theorem elementCount_noSpace {id : Nat} (h : 16 < id) : elementCount id = none := by
  unfold elementCount
  split <;> first | omega | rfl

/-- The element counts of the tables bound exactly the addresses that name an element (R54). -/
theorem Addr.wf_eq_isSome_resolve (a : Addr) : a.wf = (resolve a).isSome := by
  obtain ⟨id, i⟩ := a
  obtain ⟨sp, rfl⟩ | rfl | rfl | hid := spaceId_cases id
  · have hres := resolve_space16Addr sp i
    rw [Space16.addr] at hres
    by_cases hi : i < sp.size <;> simp [Addr.wf, hres, hi]
  · have hres := resolve_probAddr i
    rw [probAddr] at hres
    have hcount : elementCount probId = some numClasses := rfl
    by_cases hi : i < numClasses <;> simp [Addr.wf, hres, hcount, hi]
  · rw [resolve_csrSpace, Option.isSome_map, isSome_csrOfIndex]
    rfl
  · rw [resolve_noSpace hid, Addr.wf, elementCount_noSpace hid]
    rfl

theorem Addr.wf_iff {a : Addr} : a.wf = true ↔ ∃ l : Location, resolve a = some l := by
  rw [Addr.wf_eq_isSome_resolve, Option.isSome_iff_exists]

theorem resolve_eq_none {a : Addr} (h : a.wf = false) : resolve a = none := by
  rw [Addr.wf_eq_isSome_resolve] at h
  exact Option.isNone_iff_eq_none.mp (Option.isSome_eq_false_iff.mp h)

theorem resolve_spaceId {a : Addr} {l : Location} (h : resolve a = some l) : a.space = l.spaceId := by
  obtain ⟨id, i⟩ := a
  obtain ⟨sp, rfl⟩ | rfl | rfl | hid := spaceId_cases id
  · have hres := (resolve_space16Addr sp i).symm.trans h
    split at hres <;> cases hres
    rfl
  · have hres := (resolve_probAddr i).symm.trans h
    split at hres <;> cases hres
    rfl
  · rw [resolve_csrSpace, Option.map_eq_some_iff] at h
    obtain ⟨r, -, rfl⟩ := h
    rfl
  · rw [resolve_noSpace hid] at h
    cases h

end Sys2Proof

namespace Sys2Proof.Machine

/-! ### The host's moves -/

/-- The width that an address asks for is that of the location it names (R50). -/
theorem toWidthOf_of_fits {a : Addr} {l : Location} {v : Element} (hl : resolve a = some l)
    (hv : v.fits a = true) : Element.toWidthOf v l = v := by
  have hspace := resolve_spaceId hl
  cases l with
  | mem16 sp i =>
    cases v with
    | s16 x => rfl
    | w32 w =>
      have hprob : sp.id ≠ 7 := sp.id_ne_probId
      have hcsr : sp.id ≠ 16 := sp.id_ne_csrId
      simp [Element.fits, hspace, Location.spaceId, hprob, hcsr] at hv
  | prob i =>
    cases v with
    | s16 x => simp [Element.fits, hspace, Location.spaceId, probId] at hv
    | w32 w => rfl
  | csr r =>
    cases v with
    | s16 x => simp [Element.fits, hspace, Location.spaceId, csrId] at hv
    | w32 w => rfl

/-- A value in the width of its location is never refused. -/
theorem State.hostWrite_toWidthOf (s : State) (a : Addr) (l : Location) (v : Element) :
    ∃ t, s.hostWrite a l (Element.toWidthOf v l) = .next t := by
  cases l <;> cases v <;> exact ⟨_, rfl⟩

theorem hostMove_noSuchElement {a : Addr} {m : HostMove} (s : State) (v : Element) (h : resolve a = none)
    (hm : m = .read a ∨ m = .write a v ∨ m = .writeBack a) :
    hostMove m s = .refused (.noSuchElement a) := by
  obtain rfl | rfl | rfl := hm <;> simp [hostMove, h]

theorem hostMove_of_wf {m : HostMove} (s : State) (h : m.wf = true) : ∃ t, hostMove m s = .next t := by
  cases m with
  | read a =>
    obtain ⟨l, hl⟩ := Addr.wf_iff.mp h
    exact ⟨s.hostRead l, by simp [hostMove, hl]⟩
  | write a v =>
    obtain ⟨ha, hv⟩ := Bool.and_eq_true_iff.mp h
    obtain ⟨l, hl⟩ := Addr.wf_iff.mp ha
    obtain ⟨t, ht⟩ := s.hostWrite_toWidthOf a l v
    rw [toWidthOf_of_fits hl hv] at ht
    exact ⟨t, by simp [hostMove, hl, ht]⟩
  | writeBack a =>
    obtain ⟨l, hl⟩ := Addr.wf_iff.mp h
    obtain ⟨t, ht⟩ := s.hostWrite_toWidthOf a l s.rdata
    exact ⟨t, by simp [hostMove, hl, ht]⟩
  | wait => exact ⟨s.hostWait, rfl⟩
  | reset => exact ⟨s.resetBlock, rfl⟩

/-- Settles O16: `resolve` answers by the space that the id names, and a host move is refused only for want of an
element or of the right width. -/
theorem addressesOutOfRangeAreRefused : Obligations.AddressesOutOfRangeAreRefused := by
  refine ⟨fun a => Addr.wf_iff, fun sp i => ⟨sp.id, sp.size, ?_, rfl, resolve_space16Addr sp i⟩,
    fun i => ⟨rfl, resolve_probAddr i⟩, fun s es a v m ha hm he => ?_, fun s es m hm he => ?_⟩
  · cases sp <;> decide
  · rw [step_host he]
    exact hostMove_noSuchElement _ v (resolve_eq_none ha) hm
  · rw [step_host he]
    exact hostMove_of_wf _ hm

end Sys2Proof.Machine
end

section
/-! The host's reads and writes of single elements, while the core owns them and while it does not (R55, R58, R60, R65). -/

namespace Sys2Proof.Machine

theorem step_read {s : State} {es : List Event} {a : Addr} {l : Location} (hl : resolve a = some l)
    (he : s.events = .host (.read a) :: es) :
    step s = .next (State.hostRead { s with events := es } l) := by
  rw [step_host he, hostMove, hl]

/-! ### Reads while the core owns the memories -/

theorem State.hostRead16_busy {s : State} (sp : Space16) (i : Nat) (h : s.status.busy = true) :
    s.hostRead16 sp i = s.answerDraw16 := by
  simp [State.hostRead16, h]

theorem State.hostReadProb_busy {s : State} (i : Nat) (h : s.status.busy = true) :
    s.hostReadProb i = s.answerDraw32 := by
  simp [State.hostReadProb, h]

theorem State.hostReadCsr_owned {s : State} {r : Csr} (h : s.status.busy = true) (hr : r.owned = true) :
    s.hostReadCsr r = s.answerDraw32 := by
  simp [State.hostReadCsr, h, hr]

/-- STATUS, CFG and CMD read the same, busy or not (R60). -/
theorem State.hostReadCsr_notOwned (s : State) {r : Csr} (hr : r.owned = false) :
    s.hostReadCsr r = s.answer (.w32 (s.csr r)) := by
  simp [State.hostReadCsr, hr]

/-- Settles O14: a read of what the core owns is answered by a draw, a read of the three other registers by the
register. -/
theorem readsWhileBusy : Obligations.ReadsWhileBusy := by
  intro s es a l hbusy hl he
  cases l with
  | mem16 sp i =>
    exact ⟨_, (step_read hl he).trans (congrArg _ (State.hostRead16_busy sp i hbusy)), rfl, rfl⟩
  | prob i =>
    exact ⟨_, (step_read hl he).trans (congrArg _ (State.hostReadProb_busy i hbusy)), rfl, rfl⟩
  | csr r =>
    cases r with
    | cmd | status | cfg =>
      exact ⟨_, (step_read hl he).trans (congrArg _ (State.hostReadCsr_notOwned _ rfl)), rfl, rfl⟩
    | qIn | qOut | dqIn | dqOut | amax =>
      exact ⟨_, (step_read hl he).trans (congrArg _ (State.hostReadCsr_owned hbusy rfl)), rfl, rfl⟩

/-! ### Reads and writes while idle -/

section Idle

variable {s : State} {es : List Event} {sp : Space16} {i : Nat}

theorem step_read16_value {v : S16} (hidle : s.status.busy = false) (hi : i < sp.size)
    (hv : s.read16 sp i = some v) (he : s.events = .host (.read (sp.addr i)) :: es) :
    step s = .next (State.answer { s with events := es } (.s16 v)) := by
  rw [step_read ((resolve_space16Addr sp i).trans (if_pos hi)) he]
  simp [State.hostRead, State.hostRead16, hidle, hv]

theorem step_read16_noValue (hidle : s.status.busy = false) (hi : i < sp.size)
    (hv : s.read16 sp i = none) (he : s.events = .host (.read (sp.addr i)) :: es) :
    step s = .next (State.answerDraw16 { s with events := es }) := by
  rw [step_read ((resolve_space16Addr sp i).trans (if_pos hi)) he]
  simp [State.hostRead, State.hostRead16, hidle, hv]

theorem step_write16_idle {v : S16} (hidle : s.status.busy = false) (hi : i < sp.size)
    (he : s.events = .host (.write (sp.addr i) (.s16 v)) :: es) :
    step s = .next (State.write16 { s with events := es } sp i v) := by
  rw [step_host he, hostMove, resolve_space16Addr, if_pos hi]
  simp [State.hostWrite, State.hostWrite16, hidle]

theorem step_readProb_value {v : F32} (hidle : s.status.busy = false) (hi : i < numClasses)
    (hv : s.readProb i = some v) (he : s.events = .host (.read (probAddr i)) :: es) :
    step s = .next (State.answer { s with events := es } (.w32 v)) := by
  rw [step_read ((resolve_probAddr i).trans (if_pos hi)) he]
  simp [State.hostRead, State.hostReadProb, hidle, hv]

theorem step_readProb_noValue (hidle : s.status.busy = false) (hi : i < numClasses)
    (hv : s.readProb i = none) (he : s.events = .host (.read (probAddr i)) :: es) :
    step s = .next (State.answerDraw32 { s with events := es }) := by
  rw [step_read ((resolve_probAddr i).trans (if_pos hi)) he]
  simp [State.hostRead, State.hostReadProb, hidle, hv]

theorem step_writeProb_idle {v : F32} (hidle : s.status.busy = false) (hi : i < numClasses)
    (he : s.events = .host (.write (probAddr i) (.w32 v)) :: es) :
    step s = .next (State.writeProb { s with events := es } i v) := by
  rw [step_host he, hostMove, resolve_probAddr, if_pos hi]
  simp [State.hostWrite, State.hostWriteProb, hidle]

end Idle

@[simp] theorem State.write16_status (s : State) (sp : Space16) (i : Nat) (v : S16) :
    (s.write16 sp i v).status = s.status := State.setMem_status s sp _

@[simp] theorem State.write16_events (s : State) (sp : Space16) (i : Nat) (v : S16) :
    (s.write16 sp i v).events = s.events := State.setMem_events s sp _

theorem State.sameRegs_write16 (s : State) (sp : Space16) (i : Nat) (v : S16) :
    s.sameRegs (s.write16 sp i v) :=
  ⟨State.setMem_cfg s sp _, State.setMem_qIn s sp _, State.setMem_qOut s sp _, State.setMem_dqIn s sp _,
    State.setMem_dqOut s sp _, State.setMem_amax s sp _⟩

theorem State.readProb_writeProb (s : State) (i j : Nat) (v : F32) :
    (s.writeProb i v).readProb j = if j = i then some v else s.readProb j :=
  Memory.read_write s.prob i j v

/-- A write while idle and a read of the same element: the state between the two steps is that of the write. -/
theorem runSteps_write16_read16 {s : State} {es : List Event} {sp : Space16} {i : Nat} {v : S16}
    (he : s.events = wr16 sp i v ++ rd (sp.addr i) ++ es) (hidle : s.status.busy = false)
    (hi : i < sp.size) :
    runSteps 2 s =
      .next (State.answer { State.write16 { s with events := rd (sp.addr i) ++ es } sp i v with
        events := es } (.s16 v)) := by
  refine (runSteps_next (step_write16_idle hidle hi he)).trans
    ((runSteps_next (step_read16_value ?_ hi ?_ ?_)).trans (runSteps_zero _))
  · rw [State.write16_status]
    exact hidle
  · rw [State.read16_write16, if_pos ⟨rfl, rfl⟩]
  · rw [State.write16_events]
    rfl

theorem runSteps_writeProb_readProb {s : State} {es : List Event} {i : Nat} {v : F32}
    (he : s.events = wrProb i v ++ rd (probAddr i) ++ es) (hidle : s.status.busy = false)
    (hi : i < numClasses) :
    runSteps 2 s =
      .next (State.answer { State.writeProb { s with events := rd (probAddr i) ++ es } i v with
        events := es } (.w32 v)) := by
  refine (runSteps_next (step_writeProb_idle hidle hi he)).trans
    ((runSteps_next (step_readProb_value ?_ hi ?_ ?_)).trans (runSteps_zero _))
  · exact hidle
  · rw [State.readProb_writeProb, if_pos rfl]
  · rfl

/-- Settles O15: the write stores one element, the read after it answers that element, and a read of an element without
a value answers a draw. -/
theorem idleMemoryAccess : Obligations.IdleMemoryAccess := by
  refine ⟨fun s es sp i v hidle hi => ?_, fun s es i v hidle hi => ?_, fun s es sp i hidle hi hv he => ?_,
    fun s es i hidle hi hv he => ?_⟩
  · refine ⟨_, runSteps_write16_read16 rfl hidle hi, rfl, rfl, ?_, fun sp' j hne => ?_, fun j => ?_,
      State.sameRegs_write16 _ sp i v, ?_⟩
    · rw [State.answer_read16, State.withEvents_read16, State.read16_write16, if_pos ⟨rfl, rfl⟩]
    · simp only [State.answer_read16, State.withEvents_read16, State.read16_write16, if_neg hne]
    · exact State.setMem_readProb _ sp _ j
    · exact State.write16_status _ sp i v
  · refine ⟨_, runSteps_writeProb_readProb rfl hidle hi, rfl, rfl, ?_, fun j hne => ?_, fun sp j => ?_,
      ⟨rfl, rfl, rfl, rfl, rfl, rfl⟩, rfl⟩
    · exact (State.readProb_writeProb _ i i v).trans (if_pos rfl)
    · exact (State.readProb_writeProb _ i j v).trans (if_neg hne)
    · simp only [State.answer_read16, State.withEvents_read16, State.writeProb_read16]
  · exact step_read16_noValue hidle hi hv he
  · exact step_readProb_noValue hidle hi hv he

end Sys2Proof.Machine
end

section
/-! The byte view of a platform wrapper: little-endian, and aligned as the wrapper's bases are (R53, R56). -/

namespace Sys2Proof

/-- The high byte put back above the low one. -/
theorem extract_append_16 (v : S16) : v.extractLsb' 8 8 ++ v.extractLsb' 0 8 = v :=
  (BitVec.extractLsb'_append_extractLsb'_eq_extractLsb' rfl).trans BitVec.extractLsb'_eq_self

theorem extract_append_32 (v : U32) :
    v.extractLsb' 24 8 ++ v.extractLsb' 16 8 ++ v.extractLsb' 8 8 ++ v.extractLsb' 0 8 = v := by
  rw [BitVec.extractLsb'_append_extractLsb'_eq_extractLsb' (by decide),
    BitVec.extractLsb'_append_extractLsb'_eq_extractLsb' (by decide),
    BitVec.extractLsb'_append_extractLsb'_eq_extractLsb' (by decide)]
  exact BitVec.extractLsb'_eq_self

theorem Element.ofBytes_bytes (v : Element) : Element.ofBytes v.bytes = some v := by
  cases v with
  | s16 x => rw [Element.bytes, Element.ofBytes, extract_append_16]
  | w32 w => rw [Element.bytes, Element.ofBytes, extract_append_32]

theorem Element.toNat_of_bytes_s16 {v : S16} {b0 b1 : BitVec 8} (h : (Element.s16 v).bytes = [b0, b1]) :
    v.toNat = b0.toNat + 256 * b1.toNat := by
  obtain ⟨rfl, rfl⟩ : v.extractLsb' 0 8 = b0 ∧ v.extractLsb' 8 8 = b1 := by simpa [Element.bytes] using h
  have hv := v.isLt
  simp only [BitVec.extractLsb'_toNat, Nat.shiftRight_eq_div_pow]
  omega

/-- The bases are aligned to the elements of their space, and the offsets within a space are multiples of their
width. -/
theorem Location.byteAddrFrom_mod_byteWidth (m : PlatformMap) (l : Location) :
    l.byteAddrFrom m % l.byteWidth = 0 := by
  have hbase := m.aligned l.spaceId
  rw [Location.byteAddrFrom]
  cases l with
  | mem16 sp i =>
    have hprob : sp.id ≠ 7 := sp.id_ne_probId
    have hcsr : sp.id ≠ 16 := sp.id_ne_csrId
    simp only [Location.spaceId, hprob, hcsr, or_self, if_false] at hbase
    simp only [Location.spaceId, Location.byteOffset, Location.byteWidth]
    omega
  | prob i =>
    simp only [Location.spaceId, probId, true_or, if_true] at hbase
    simp only [Location.spaceId, probId, Location.byteOffset, Location.byteWidth]
    omega
  | csr r =>
    simp only [Location.spaceId, csrId, or_true, if_true] at hbase
    simp only [Location.spaceId, csrId, Location.byteOffset, Location.byteWidth]
    omega

/-- Settles O60. -/
theorem platformByteView : Obligations.PlatformByteView :=
  ⟨Element.ofBytes_bytes, fun _ _ _ => Element.toNat_of_bytes_s16, fun _ => ⟨rfl, rfl⟩,
    fun _ _ _ _ => ⟨rfl, rfl, rfl⟩, Location.byteAddrFrom_mod_byteWidth,
    Location.byteAddrFrom_mod_byteWidth Config.platform⟩

end Sys2Proof
end

section
/-! The indices that the loops of a convolution and of a max-pool compute (R51, R123, R138). -/

namespace Sys2Proof

/-- Settles O37: each coordinate is below its extent, a window's last row and column included. -/
theorem stageIndicesStayInRange : Obligations.StageIndicesStayInRange := by
  refine ⟨fun g k z y x ky kx hg hk hz hy hx hky hkx => ?_, fun g c y x dy dx hg hc hy hx hdy hdx => ?_⟩
  · simp only [ConvShape.wf, Bool.and_eq_true, decide_eq_true_eq] at hg
    obtain ⟨⟨⟨-, hKH⟩, -⟩, hKW⟩ := hg
    exact ⟨idx3_lt hz (ConvShape.row_lt hKH hy hky) (ConvShape.column_lt hKW hx hkx),
      idx4_lt hk hz hky hkx, idx3_lt hk hy hx⟩
  · have hrow : 2 * y + dy < g.H := by omega
    have hcolumn : 2 * x + dx < g.W := by omega
    exact ⟨idx3_lt hc hrow hcolumn, idx3_lt hc hy hx⟩

end Sys2Proof
end

section
/-! An operand without a value leaves no result, and the stage stores the draw set aside for that output (R12, R37,
R65). -/

namespace Sys2Proof.Machine

/-! ### Operators over a missing operand -/

theorem allSome_eq_none {α : Type} {l : List (Option α)} (h : none ∈ l) : allSome l = none := by
  cases hl : allSome l with
  | none => rfl
  | some xs =>
    rw [map_some_of_allSome hl] at h
    simp at h

theorem operandPair_eq_none {x w : Option S16} (h : x = none ∨ w = none) : operandPair x w = none := by
  obtain rfl | rfl := h
  · rfl
  · cases x <;> rfl

theorem reduceOperands_eq_none {F : Nat} {b : Option S16} {pairs : List (Option (S16 × S16))} {r : Bool}
    (h : b = none ∨ none ∈ pairs) : reduceOperands F b pairs r = none := by
  obtain rfl | h := h
  · rfl
  · cases b with
    | none => rfl
    | some bias => simp [reduceOperands, allSome_eq_none h]

theorem conv2d_eq_none {F : Nat} {g : ConvShape} {inp ker bias : Nat → Option S16} {k y x : Nat}
    (h : bias k = none ∨ ∃ z ky kx : Nat, z < g.Z ∧ ky < g.KH ∧ kx < g.KW ∧
      (inp (idx3 g.H g.W z (y + ky) (x + kx)) = none ∨ ker (idx4 g.Z g.KH g.KW k z ky kx) = none)) :
    conv2d F g inp ker bias k y x = none := by
  refine reduceOperands_eq_none (h.imp_right ?_)
  rintro ⟨z, ky, kx, hz, hky, hkx, hmissing⟩
  exact List.mem_map.mpr ⟨(z, ky, kx), ConvShape.mem_taps.mpr ⟨hz, hky, hkx⟩, operandPair_eq_none hmissing⟩

theorem dense_eq_none {F : Nat} {g : DenseShape} {x wt bias : Nat → Option S16} {r : Bool} {k : Nat}
    (h : bias k = none ∨ ∃ i : Nat, i < g.In ∧ (x i = none ∨ wt (idx2 g.In k i) = none)) :
    dense F g x wt bias r k = none := by
  refine reduceOperands_eq_none (h.imp_right ?_)
  rintro ⟨i, hi, hmissing⟩
  exact List.mem_map.mpr ⟨i, List.mem_range.mpr hi, operandPair_eq_none hmissing⟩

theorem max4_eq_none {a b c d : Option S16} (h : a = none ∨ b = none ∨ c = none ∨ d = none) :
    max4 a b c d = none := by
  unfold max4
  split
  next => simp at h
  next => rfl

/-! ### Operators at a linear index -/

/-- A linear index gives its coordinates back. -/
theorem idx3_coordinates {B C c y x : Nat} (hy : y < B) (hx : x < C) :
    idx3 B C c y x / (B * C) = c ∧ idx3 B C c y x / C % B = y ∧ idx3 B C c y x % C = x := by
  have hplane : idx3 B C c y x / C = c * B + y := by
    rw [idx3, Nat.mul_comm, Nat.mul_add_div (Nat.zero_lt_of_lt hx), Nat.div_eq_of_lt hx, Nat.add_zero]
  refine ⟨?_, ?_, Nat.mul_add_mod_of_lt hx⟩
  · rw [Nat.mul_comm B, ← Nat.div_div_eq_div_mul, hplane, Nat.mul_comm,
      Nat.mul_add_div (Nat.zero_lt_of_lt hy), Nat.div_eq_of_lt hy, Nat.add_zero]
  · rw [hplane]
    exact Nat.mul_add_mod_of_lt hy

theorem conv2dAt_idx3 {F : Nat} {g : ConvShape} {inp ker bias : Nat → Option S16} {k y x : Nat}
    (hy : y < g.OH) (hx : x < g.OW) :
    conv2dAt F g inp ker bias (idx3 g.OH g.OW k y x) = conv2d F g inp ker bias k y x := by
  obtain ⟨hk', hy', hx'⟩ := idx3_coordinates (c := k) hy hx
  rw [conv2dAt, hk', hy', hx']

theorem maxpool2At_idx3 {g : PoolShape} {inp : Nat → Option S16} {c y x : Nat} (hy : y < g.H / 2)
    (hx : x < g.W / 2) : maxpool2At g inp (idx3 (g.H / 2) (g.W / 2) c y x) = maxpool2 g inp c y x := by
  obtain ⟨hc', hy', hx'⟩ := idx3_coordinates (c := c) hy hx
  rw [maxpool2At, hc', hy', hx']

/-- The window of an output element starts at `b` and has its second row `g.W` elements further on (R135). -/
theorem maxpool2_eq_none {g : PoolShape} {inp : Nat → Option S16} {c y x b : Nat}
    (hb : b = idx3 g.H g.W c (2 * y) (2 * x))
    (h : inp b = none ∨ inp (b + 1) = none ∨ inp (b + g.W) = none ∨ inp (b + (g.W + 1)) = none) :
    maxpool2 g inp c y x = none := by
  have hright : idx3 g.H g.W c (2 * y) (2 * x + 1) = b + 1 := by rw [hb]; rfl
  have hbelow : idx3 g.H g.W c (2 * y + 1) (2 * x) = b + g.W := by rw [hb, idx3, idx3]; ring
  have hdiagonal : idx3 g.H g.W c (2 * y + 1) (2 * x + 1) = b + (g.W + 1) := by rw [hb, idx3, idx3]; ring
  rw [maxpool2, ← hb, hright, hbelow, hdiagonal]
  exact max4_eq_none h

/-! ### The stages -/

/-- A stage that fills a space stores the draw set aside for an output without a result. -/
theorem State.read16_fill16_of_none {s : State} {sp : Space16} {f : Nat → Option S16} {i : Nat}
    (hi : i < sp.size) (hf : f i = none) :
    (s.fill16 sp f).read16 sp i = some (Config.draw16 (s.draws + i)) := by
  rw [State.read16_fill16, if_pos rfl, if_pos hi, hf, Option.getD_none]

theorem State.readProb_fillProb_of_none {s : State} {f : Nat → Option F32} {i : Nat} (hi : i < numClasses)
    (hf : f i = none) : (s.fillProb f).readProb i = some (Config.draw32 (s.draws + i)) := by
  rw [State.readProb_fillProb, if_pos hi, hf, Option.getD_none]

theorem conv1_draws (s : State) {k y x : Nat} (hk : k < 20) (hy : y < 24) (hx : x < 24)
    (h : s.read16 .bC1 k = none ∨ ∃ ky kx : Nat, ky < 5 ∧ kx < 5 ∧
      (s.read16 .img ((y + ky) * 28 + (x + kx)) = none ∨ s.read16 .wC1 ((k * 5 + ky) * 5 + kx) = none)) :
    (conv1Body s).read16 .c1 ((k * 24 + y) * 24 + x) =
      some (Config.draw16 (s.draws + ((k * 24 + y) * 24 + x))) := by
  refine State.read16_fill16_of_none (idx3_lt hk hy hx) ((conv2dAt_idx3 hy hx).trans (conv2d_eq_none ?_))
  refine h.imp_right ?_
  rintro ⟨ky, kx, hky, hkx, hmissing⟩
  refine ⟨0, ky, kx, Nat.zero_lt_one, hky, hkx, ?_⟩
  simpa [idx3, idx4, conv1Shape] using hmissing

theorem conv2_draws (s : State) {k y x : Nat} (hk : k < 40) (hy : y < 8) (hx : x < 8)
    (h : s.read16 .bC2 k = none ∨ ∃ z ky kx : Nat, z < 20 ∧ ky < 5 ∧ kx < 5 ∧
      (s.read16 .p1 ((z * 12 + (y + ky)) * 12 + (x + kx)) = none ∨
        s.read16 .wC2 (((k * 20 + z) * 5 + ky) * 5 + kx) = none)) :
    (conv2Body s).read16 .c2 ((k * 8 + y) * 8 + x) =
      some (Config.draw16 (s.draws + ((k * 8 + y) * 8 + x))) :=
  State.read16_fill16_of_none (idx3_lt hk hy hx) ((conv2dAt_idx3 hy hx).trans (conv2d_eq_none h))

theorem pool1_draws (s : State) {c y x b : Nat} (hc : c < 20) (hy : y < 12) (hx : x < 12)
    (hb : b = (c * 24 + 2 * y) * 24 + 2 * x)
    (h : s.read16 .c1 b = none ∨ s.read16 .c1 (b + 1) = none ∨ s.read16 .c1 (b + 24) = none ∨
      s.read16 .c1 (b + 25) = none) :
    (pool1Body s).read16 .p1 ((c * 12 + y) * 12 + x) =
      some (Config.draw16 (s.draws + ((c * 12 + y) * 12 + x))) :=
  State.read16_fill16_of_none (idx3_lt hc hy hx) ((maxpool2At_idx3 hy hx).trans (maxpool2_eq_none hb h))

theorem pool2_draws (s : State) {c y x b : Nat} (hc : c < 40) (hy : y < 4) (hx : x < 4)
    (hb : b = (c * 8 + 2 * y) * 8 + 2 * x)
    (h : s.read16 .c2 b = none ∨ s.read16 .c2 (b + 1) = none ∨ s.read16 .c2 (b + 8) = none ∨
      s.read16 .c2 (b + 9) = none) :
    (pool2Body s).read16 .p2 ((c * 4 + y) * 4 + x) =
      some (Config.draw16 (s.draws + ((c * 4 + y) * 4 + x))) :=
  State.read16_fill16_of_none (idx3_lt hc hy hx) ((maxpool2At_idx3 hy hx).trans (maxpool2_eq_none hb h))

theorem fc1_draws (s : State) {k : Nat} (hk : k < 400)
    (h : s.read16 .bF1 k = none ∨
      ∃ i : Nat, i < 640 ∧ (s.read16 .p2 i = none ∨ s.read16 .wF1 (k * 640 + i) = none)) :
    (fc1Body s).read16 .h1 k = some (Config.draw16 (s.draws + k)) :=
  State.read16_fill16_of_none hk (dense_eq_none h)

theorem fc2_draws (s : State) {k : Nat} (hk : k < 10)
    (h : s.read16 .bF2 k = none ∨
      ∃ i : Nat, i < 400 ∧ (s.read16 .h1 i = none ∨ s.read16 .wF2 (k * 400 + i) = none)) :
    (fc2Body s).read16 .logit k = some (Config.draw16 (s.draws + k)) :=
  State.read16_fill16_of_none hk (dense_eq_none h)

/-- Settles O43: at each output index the stage's operator has no result. -/
theorem unwrittenOperandGivesUnspecifiedOutput : Obligations.UnwrittenOperandGivesUnspecifiedOutput := by
  intro s
  refine ⟨fun k y x hk hy hx h => ⟨_, exec_conv1 s, ?_⟩, fun k y x hk hy hx h => ⟨_, exec_conv2 s, ?_⟩,
    fun c y x b hc hy hx hb h => ⟨_, exec_pool2 s, ?_⟩, fun c y x b hc hy hx hb h => ⟨_, exec_pool1 s, ?_⟩,
    fun k hk h => ⟨_, exec_fc1 s, ?_⟩, fun k hk h => ⟨_, exec_fc2 s, ?_⟩⟩
  · rw [State.complete_read16, conv1_draws s hk hy hx h]
  · rw [State.complete_read16, conv2_draws s hk hy hx h]
  · rw [State.complete_read16, pool2_draws s hc hy hx hb h]
  · rw [State.complete_read16, pool1_draws s hc hy hx hb h]
  · rw [State.complete_read16, fc1_draws s hk h]
  · rw [State.complete_read16, fc2_draws s hk h]

/-! ### SOFTMAX, ARGMAX and QUANT -/

theorem State.softmaxResult_eq_none {s : State} {i : Nat} (hi : i < numClasses)
    (h : s.read16 .logit i = none) : s.softmaxResult = none := by
  have hlogits : s.logits = none := allSome_eq_none (List.mem_map.mpr ⟨i, List.mem_range.mpr hi, h⟩)
  rw [State.softmaxResult, hlogits]

theorem softmaxBody_draws_of_none {s : State} (h : s.softmaxResult = none) {i : Nat} (hi : i < numClasses) :
    (softmaxBody s).readProb i = some (Config.draw32 (s.draws + i)) := by
  refine State.readProb_fillProb_of_none hi ?_
  rw [h]

theorem State.probs_eq_none {s : State} {i : Nat} (hi : i < numClasses) (h : s.readProb i = none) :
    s.probs = none :=
  allSome_eq_none (List.mem_map.mpr ⟨i, List.mem_range.mpr hi, h⟩)

theorem argmaxBody_amax_of_none {s : State} (h : s.probs = none) :
    (argmaxBody s).amax.toNat = (Config.drawClass s.draws).val := by
  have hlt : (Config.drawClass s.draws).val < 2 ^ 4 := (Config.drawClass s.draws).isLt.trans (by decide)
  rw [argmaxBody, h, State.setAmax_amax, Option.getD_none, BitVec.toNat_ofNat, Nat.mod_eq_of_lt hlt]

theorem quantBody_qOut_of_not_finite {s : State} (h : F32.isFinite s.qIn = false) :
    (quantBody s).qOut = Config.draw16 s.draws := by
  have hq : quantize s.cfg.quantTie s.cfg.F.val s.qIn = none := by simp [quantize, h]
  rw [quantBody_qOut, hq, Option.getD_none]

/-- Settles O44: a missing logit leaves softmax without a result, a missing probability argmax, and `quantize` has none
for a pattern that is no number. -/
theorem unspecifiedResultsAreDraws : Obligations.UnspecifiedResultsAreDraws := by
  intro s
  refine ⟨?_, ?_, fun h => ⟨_, exec_quant s, ?_⟩⟩
  · rintro ⟨j, hj, hmissing⟩
    refine ⟨_, exec_softmax s, fun i hi => ?_⟩
    rw [State.complete_readProb, softmaxBody_draws_of_none (State.softmaxResult_eq_none hj hmissing) hi]
  · rintro ⟨j, hj, hmissing⟩
    exact ⟨_, exec_argmax s, argmaxBody_amax_of_none (State.probs_eq_none hj hmissing),
      argmaxBody_amax_le s⟩
  · rw [State.csr, State.complete_qOut, quantBody_qOut_of_not_finite h,
      BitVec.setWidth_eq_append (by decide)]
    rfl

end Sys2Proof.Machine
end

section
/-! Which words are command words, and what a write of any other to CMD does (R81, R83, R207). -/

namespace Sys2Proof

/-- Settles O1. -/
theorem decodeMatchesExactlyTheEncodings : Obligations.DecodeMatchesExactlyTheEncodings :=
  ⟨decode_encode, fun _ _ => encode_of_decode⟩

/-- Settles O3: the legal words are the commands' own, and the decoder refuses the four others. -/
theorem sampleWordsDecodeRight : Obligations.SampleWordsDecodeRight :=
  ⟨decode_encode .nop, decode_encode .conv1, decode_encode .pool2, decode_encode .fc1,
    decode_encode .argmax, decode_encode .dequant, decode_encode .forward, rfl, rfl, rfl, rfl⟩

theorem encode_injective : Function.Injective encode := by
  intro i j h
  have hd : decode (encode i) = decode (encode j) := congrArg decode h
  rw [decode_encode, decode_encode] at hd
  exact Except.ok.inj hd

/-- The twelve command words by value (R81). -/
theorem exists_eq_encode_iff (w : U32) :
    (∃ i : Instr, w = encode i) ↔ w.toNat ≤ 0x0A ∨ w.toNat = 0x0F := by
  constructor
  · rintro ⟨i, rfl⟩
    cases i <;> decide
  · intro h
    have hw : w = BitVec.ofNat 32 w.toNat := by simp
    generalize w.toNat = n at h hw
    subst hw
    obtain hle | rfl := h
    · interval_cases n
      exacts [⟨.nop, rfl⟩, ⟨.conv1, rfl⟩, ⟨.pool1, rfl⟩, ⟨.conv2, rfl⟩, ⟨.pool2, rfl⟩, ⟨.fc1, rfl⟩,
        ⟨.fc2, rfl⟩, ⟨.softmax, rfl⟩, ⟨.argmax, rfl⟩, ⟨.quant, rfl⟩, ⟨.dequant, rfl⟩]
    · exact ⟨.forward, rfl⟩

theorem decode_eq_error {w : U32} (h : ¬∃ i : Instr, w = encode i) :
    ∃ e : IllegalWord, decode w = .error e := by
  cases hd : decode w with
  | ok i => exact absurd ⟨i, encode_of_decode hd⟩ h
  | error e => exact ⟨e, rfl⟩

end Sys2Proof

namespace Sys2Proof.Machine

theorem State.writeCmd_illegal {s : State} {w : U32} (hidle : s.status.busy = false)
    (h : ¬∃ i : Instr, w = encode i) : s.writeCmd w = s.raiseCmdError illegalCmd := by
  obtain ⟨e, he⟩ := decode_eq_error h
  simp [State.writeCmd, hidle, he]

/-- Settles O2: the twelve words are the values 0 to 0x0A and 0x0F, and the decoder refuses every other. -/
theorem reservedWordsAreIllegal : Obligations.ReservedWordsAreIllegal := by
  refine ⟨fun _ _ h => encode_injective h, fun w => ?_, fun s es w hw hidle he => ?_⟩
  · rw [exists_eq_encode_iff]
    omega
  · rw [step_writeCsr he]
    exact congrArg _ (State.writeCmd_illegal hidle hw)

end Sys2Proof.Machine
end

section
/-! The lines RUN and QLOAD while idle, and beside QLOAD the line of the offline loader (R86, R87, R185). -/

namespace Sys2Proof.Machine

/-! ### RUN -/

/-- The four steps of RUN: the command is accepted, a poll finds DONE 0, the core performs the stage, a poll finds
DONE 1. -/
theorem runSteps_runLine {i : Instr} (hi : i ≠ .forward) {s b : State} (hb : stageBody i.firstStage s = some b)
    {t : Status} (hidle : t.busy = false) (k : Nat) (es : List Event) (v : Element) :
    runSteps (k + 4) (s.withShell t (runLine i ++ es) v) =
      runSteps k (b.withShell (t.accept i).complete es (.w32 (t.accept i).complete.toWord)) :=
  calc runSteps (k + 4) (s.withShell t (runLine i ++ es) v)
      = runSteps (k + 3) (s.withShell (t.accept i) (.host .wait :: es) v) :=
        runSteps_next (step_cmdWrite s t _ v i hidle)
    _ = runSteps (k + 2) (s.withShell (t.accept i) (.core :: .host .wait :: es) _) :=
        runSteps_next (step_waitPolls s _ es v rfl)
    _ = runSteps (k + 1) (b.withShell (t.accept i).complete (.host .wait :: es) _) :=
        runSteps_next (step_singleStage hi hb rfl rfl)
    _ = runSteps k (b.withShell (t.accept i).complete es _) :=
        runSteps_next (step_waitEnds b _ es _ rfl)

/-- Settles O56. -/
theorem runLineCompletes : Obligations.RunLineCompletes := by
  intro s i es hidle hi
  obtain ⟨b, hb, -⟩ := exec_singleStage hi s
  exact ⟨b, _, hb, runSteps_runLine hi hb hidle 0 es s.rdata, rfl⟩

/-! ### QLOAD -/

theorem step_writeQIn_idle {s : State} (hidle : s.status.busy = false) (p : F32) (es : List Event) :
    step { s with events := wrReg .qIn p ++ es } = .next { s with qIn := p, events := es } :=
  (step_writeCsr rfl).trans (congrArg _ (hostWriteCsr_qIn_idle (s := { s with events := es }) p hidle))

theorem step_writeBack16_idle {s : State} {es : List Event} {sp : Space16} {i : Nat} {q : S16}
    (hidle : s.status.busy = false) (hi : i < sp.size) (hq : s.rdata = .w32 (q.setWidth 32))
    (he : s.events = .host (.writeBack (sp.addr i)) :: es) :
    step s = .next (State.write16 { s with events := es } sp i q) := by
  rw [step_host he, hostMove, resolve_space16Addr, if_pos hi]
  simp [State.hostWrite, State.hostWrite16, hidle, hq, Element.toWidthOf]

/-- The state after a run of QUANT on the pattern `p`, with the events and the value read given. -/
def State.quantized (s : State) (p : F32) (es : List Event) (v : Element) : State :=
  (quantBody { s with qIn := p }).withShell (s.status.accept .quant).complete es v

@[simp] theorem State.quantized_events (s : State) (p : F32) (es : List Event) (v : Element) :
    (s.quantized p es v).events = es := rfl

@[simp] theorem State.quantized_read16 (s : State) (p : F32) (es : List Event) (v : Element) :
    (s.quantized p es v).read16 = s.read16 := by
  funext sp i
  cases sp <;> rfl

@[simp] theorem State.quantized_readProb (s : State) (p : F32) (es : List Event) (v : Element) :
    (s.quantized p es v).readProb = s.readProb := rfl

/-- Q_OUT then holds the value of an offline conversion whose free value is the next draw (R102, R185). -/
theorem State.quantized_qOut (s : State) (p : F32) (es : List Event) (v : Element) :
    (s.quantized p es v).qOut =
      offlineValue s.cfg.quantTie s.cfg.F.val (Config.draw16 s.draws) p :=
  quantBody_qOut { s with qIn := p }

/-- The first five steps of QLOAD: the pattern is written to Q_IN and QUANT is run. -/
theorem runSteps_quantize {s : State} (hidle : s.status.busy = false) (k : Nat) (p : F32) (es : List Event) :
    ∃ v : Element, runSteps (k + 5) { s with events := wrReg .qIn p ++ (runLine .quant ++ es) } =
      runSteps k (s.quantized p es v) :=
  ⟨_, (runSteps_next (step_writeQIn_idle hidle p _)).trans
    (runSteps_runLine (i := .quant) (by decide) (IsStage.quant.stageBody_eq { s with qIn := p }) hidle k es
      s.rdata)⟩

/-- The last two steps of QLOAD: Q_OUT is read, and the value read is written to the element. -/
theorem runSteps_storeQOut {s : State} {sp : Space16} {i : Nat} (hidle : s.status.busy = false)
    (hi : i < sp.size) (k : Nat) (es : List Event)
    (he : s.events = rd (Csr.addr .qOut) ++ .host (.writeBack (sp.addr i)) :: es) :
    runSteps (k + 2) s =
      runSteps k (State.write16 { s with events := es, rdata := .w32 (s.qOut.setWidth 32) } sp i s.qOut) :=
  (runSteps_next (step_readCsr_idle hidle he)).trans
    (runSteps_next (step_writeBack16_idle hidle hi rfl rfl))

/-- The seven steps of QLOAD while idle. -/
theorem runSteps_qloadLine {s : State} {sp : Space16} {i : Nat} (hidle : s.status.busy = false)
    (hi : i < sp.size) (k : Nat) (p : F32) (es : List Event) :
    ∃ v : Element, runSteps (k + 7) { s with events := qloadLine sp i p ++ es } =
      runSteps k ((s.quantized p es v).write16 sp i
        (offlineValue s.cfg.quantTie s.cfg.F.val (Config.draw16 s.draws) p)) := by
  obtain ⟨v, hquant⟩ := runSteps_quantize hidle (k + 2) p
    (rd (Csr.addr .qOut) ++ .host (.writeBack (sp.addr i)) :: es)
  have hstore := runSteps_storeQOut (s := s.quantized p _ v) rfl hi k es rfl
  rw [State.quantized_qOut] at hstore
  exact ⟨_, hquant.trans hstore⟩

/-! ### The offline loader, and what either stores -/

/-- The step that loads one entry converted offline. -/
theorem step_loadOffline {s : State} {sp : Space16} {i : Nat} (hidle : s.status.busy = false)
    (hi : i < sp.size) (tie : QuantTie) (F : Nat) (free : Space16 → Nat → S16) (p : F32) (es : List Event) :
    step { s with events := loadOffline tie F free sp [(i, p)] ++ es } =
      .next (State.write16 { s with events := es } sp i (offlineValue tie F (free sp i) p)) :=
  step_write16_idle hidle hi rfl

theorem offlineValue_of_quantize {tie : QuantTie} {F : Nat} {p : F32} {q : S16} (free : S16)
    (h : quantize tie F p = some q) : offlineValue tie F free p = q := by
  rw [offlineValue, h, Option.getD_some]

theorem offlineValue_of_not_finite {p : F32} (tie : QuantTie) (F : Nat) (free : S16)
    (h : F32.isFinite p = false) : offlineValue tie F free p = free := by
  simp [offlineValue, quantize, h]

@[simp] theorem State.write16_readProb (s : State) (sp : Space16) (i : Nat) (v : S16) :
    (s.write16 sp i v).readProb = s.readProb :=
  funext fun j => State.setMem_readProb s sp _ j

/-- Settles O57: either way of loading writes the one element with the value of an offline conversion, QLOAD with the
next draw for the free value. -/
theorem qloadStoresTheQuantizedWeight : Obligations.QloadStoresTheQuantizedWeight := by
  intro s sp i p free es hidle hi
  obtain ⟨v, hqload⟩ := runSteps_qloadLine hidle hi 0 p es
  refine ⟨_, _, hqload, step_loadOffline hidle hi _ _ free p es,
    fun q hq => ?_, fun hp => ?_, ?_, ?_, fun j => ?_, fun j => ?_, fun sp' j hne => ?_⟩
  · simp [State.read16_write16, offlineValue_of_quantize _ hq]
  · simp [State.read16_write16, offlineValue_of_not_finite _ _ _ hp]
  · rw [State.write16_events, State.quantized_events]
  · rw [State.write16_events]
  · rw [State.write16_readProb, State.quantized_readProb]
  · rw [State.write16_readProb, State.withEvents_readProb]
  · simp only [State.read16_write16, if_neg hne, State.quantized_read16, State.withEvents_read16,
      and_self]

end Sys2Proof.Machine
end

section
/-! The shared reduction: 32-bit wrapping commutes with every addition and with the narrowing (R107 to R115). -/

namespace Sys2Proof

theorem wrap32_wrap32_add (m n : Int) : wrap32 (wrap32 m + n) = wrap32 (m + n) := Int.bmod_add_bmod

theorem wrap32_eq_self {n : Int} (hlo : -2 ^ 31 ≤ n) (hhi : n < 2 ^ 31) : wrap32 n = n :=
  Int.bmod_eq_of_le (by omega) (by omega)

theorem exists_wrap32_eq_add (n : Int) : ∃ k : Int, wrap32 n = n + 2 ^ 32 * k := by
  obtain ⟨k, hk⟩ := Int.dvd_bmod_sub_self (x := n) (m := 2 ^ 32)
  exact ⟨k, by rw [wrap32]; push_cast at hk ⊢; omega⟩

theorem wrap16_add_mul (n k : Int) : wrap16 (n + 2 ^ 16 * k) = wrap16 n := by
  apply BitVec.eq_of_toNat_eq
  rw [wrap16, wrap16, BitVec.toNat_ofInt, BitVec.toNat_ofInt]
  exact congrArg Int.toNat (Int.add_mul_emod_self_left n (2 ^ 16) k)

theorem toInt_wrap16 {n : Int} (hlo : -32768 ≤ n) (hhi : n ≤ 32767) : (wrap16 n).toInt = n := by
  rw [wrap16, BitVec.toInt_ofInt]
  exact Int.bmod_eq_of_le (by omega) (by omega)

/-- A wrap of the accumulator changes its quotient by `2^F` by a multiple of 2^16 (R114). -/
theorem add_mul_asr {F : Nat} (hF : F ≤ 16) (n k : Int) :
    asr (n + 2 ^ 32 * k) F = asr n F + 2 ^ 16 * (2 ^ (16 - F) * k) := by
  have hpow : (2 : Int) ^ 32 = 2 ^ 16 * 2 ^ (16 - F) * 2 ^ F := by
    rw [mul_assoc, ← pow_add, Nat.sub_add_cancel hF, ← pow_add]
  have hn : n + 2 ^ 32 * k = n + 2 ^ 16 * (2 ^ (16 - F) * k) * 2 ^ F := by rw [hpow]; ring
  rw [asr, asr, hn, Int.add_mul_ediv_right _ _ (by positivity)]

theorem wrap16_asr_wrap32 {F : Nat} (hF : F ≤ 16) (n : Int) :
    wrap16 (asr (wrap32 n) F) = wrap16 (asr n F) := by
  obtain ⟨k, hk⟩ := exists_wrap32_eq_add n
  rw [hk, add_mul_asr hF, wrap16_add_mul]

theorem wrap16_eq_extract {F : Nat} (hF : F ≤ 16) (n : Int) :
    wrap16 (asr n F) = (BitVec.ofInt 32 n).extractLsb' F 16 := by
  have hmod : n = n % 2 ^ 32 + 2 ^ 32 * (n / 2 ^ 32) := (Int.emod_add_mul_ediv n (2 ^ 32)).symm
  obtain ⟨r, hr⟩ : ∃ r : Nat, n % 2 ^ 32 = r := Int.eq_ofNat_of_zero_le (by omega)
  have hasr : asr (r : Int) F = ((r / 2 ^ F : Nat) : Int) := by simp [asr]
  have htoNat : (BitVec.ofInt 32 n).toNat = r := (BitVec.toNat_ofInt n).trans (congrArg Int.toNat hr)
  apply BitVec.eq_of_toNat_eq
  rw [hmod, hr, add_mul_asr hF, wrap16_add_mul, ← hr, ← hmod, BitVec.extractLsb'_toNat, htoNat,
    Nat.shiftRight_eq_div_pow, hr, hasr, wrap16, BitVec.toNat_ofInt, ← Int.natCast_mod, Int.toNat_natCast]

theorem toInt_bounds (x : S16) : -32768 ≤ x.toInt ∧ x.toInt ≤ 32767 :=
  ⟨x.le_toInt, Int.le_of_lt_add_one x.toInt_lt⟩

theorem natAbs_bias_le (F : Nat) (b : S16) : (b.toInt * 2 ^ F).natAbs ≤ 2 ^ (15 + F) := by
  have hb : b.toInt.natAbs ≤ 2 ^ 15 := by have := toInt_bounds b; omega
  rw [Int.natAbs_mul, Int.natAbs_pow, pow_add]
  exact Nat.mul_le_mul_right _ hb

/-- The product of two signed 16-bit numbers, and the one pair that reaches 2^30 (R107). -/
theorem product_bounds {x w : Int} (hx : -32768 ≤ x ∧ x ≤ 32767) (hw : -32768 ≤ w ∧ w ≤ 32767) :
    -2 ^ 30 + 2 ^ 15 ≤ x * w ∧ x * w ≤ 2 ^ 30 ∧ (x * w = 2 ^ 30 ↔ x = -32768 ∧ w = -32768) := by
  obtain ⟨hx0, hx1⟩ := hx
  obtain ⟨hw0, hw1⟩ := hw
  refine ⟨by nlinarith, by nlinarith, fun h => ⟨by nlinarith, by nlinarith⟩, ?_⟩
  rintro ⟨rfl, rfl⟩
  norm_num

/-- Settles O25. -/
theorem productAndStartNeverWrap : Obligations.ProductAndStartNeverWrap := by
  refine ⟨fun x w => product_bounds (toInt_bounds x) (toInt_bounds w), fun F b hF => ?_⟩
  have hstart : (b.toInt * 2 ^ F).natAbs ≤ 2 ^ 30 :=
    (natAbs_bias_le F b).trans (Nat.pow_le_pow_right (by decide) (by omega))
  exact ⟨wrap32_eq_self (by omega) (by omega), hstart⟩

theorem foldl_accStep_wrap32 (n : Int) (ps : List (S16 × S16)) :
    ps.foldl accStep (wrap32 n) = wrap32 (n + (ps.map fun p => p.1.toInt * p.2.toInt).sum) := by
  induction ps generalizing n with
  | nil => simp
  | cons p ps ih =>
    rw [List.foldl_cons, accStep, wrap32_wrap32_add, ih, List.map_cons, List.sum_cons, add_assoc]

/-- The closed form of R109. -/
theorem accumulate_eq_wrap32 (F : Nat) (b : S16) (ps : List (S16 × S16)) :
    accumulate F b ps = wrap32 (exactSum F b ps) := foldl_accStep_wrap32 _ ps

theorem exactSum_perm (F : Nat) (b : S16) {ps qs : List (S16 × S16)} (h : ps.Perm qs) :
    exactSum F b ps = exactSum F b qs := by
  rw [exactSum, exactSum, (h.map _).sum_eq]

/-- Settles O26: by the closed form, since the exact sum does not depend on the order. -/
theorem accumulatorHoldsTheWrappedSum : Obligations.AccumulatorHoldsTheWrappedSum := by
  refine ⟨fun F b ps x w => ?_, accumulate_eq_wrap32, fun F b ps qs h => ?_⟩
  · rw [accumulate, List.foldl_append]
    rfl
  · rw [accumulate_eq_wrap32, accumulate_eq_wrap32, exactSum_perm F b h]

theorem reduce_noRelu {F : Nat} (hF : F ≤ 16) (b : S16) (ps : List (S16 × S16)) :
    reduce F b ps false = wrap16 (asr (exactSum F b ps) F) := by
  rw [reduce, accumulate_eq_wrap32]
  exact wrap16_asr_wrap32 hF _

/-- ReLU looks at the sign of the wrapped accumulator, and the floor division keeps that sign. -/
theorem reduce_relu {F : Nat} (hF : F ≤ 16) (b : S16) (ps : List (S16 × S16)) :
    reduce F b ps true =
      if wrap32 (exactSum F b ps) < 0 then 0#16 else wrap16 (asr (exactSum F b ps) F) := by
  rw [reduce, accumulate_eq_wrap32, finishReduce, if_pos rfl, relu]
  split
  · next hneg =>
    have hasr : asr (wrap32 (exactSum F b ps)) F ≤ 0 := (Int.ediv_neg_of_neg_of_pos hneg (by positivity)).le
    rw [max_eq_right hasr]
    rfl
  · next hpos =>
    have hasr : 0 ≤ asr (wrap32 (exactSum F b ps)) F := Int.ediv_nonneg (not_lt.mp hpos) (by positivity)
    rw [max_eq_left hasr, wrap16_asr_wrap32 hF]

/-- Settles O27: narrowing keeps bits that no wrap of the accumulator changes. -/
theorem overflowChangesOnlyTheReluDecision : Obligations.OverflowChangesOnlyTheReluDecision := by
  intro F b ps hF
  have hF' : F ≤ 16 := by omega
  exact ⟨wrap16_eq_extract hF' _, reduce_noRelu hF' b ps, reduce_relu hF' b ps⟩

theorem natAbs_sum_products_le {A B : Nat} {ps : List (S16 × S16)}
    (h : ∀ p ∈ ps, p.1.toInt.natAbs ≤ A ∧ p.2.toInt.natAbs ≤ B) :
    ((ps.map fun p => p.1.toInt * p.2.toInt).sum : Int).natAbs ≤ ps.length * A * B := by
  induction ps with
  | nil => simp
  | cons p ps ih =>
    obtain ⟨⟨hx, hw⟩, hps⟩ := List.forall_mem_cons.mp h
    have hp : (p.1.toInt * p.2.toInt).natAbs ≤ A * B := by
      rw [Int.natAbs_mul]
      exact Nat.mul_le_mul hx hw
    rw [List.map_cons, List.sum_cons, List.length_cons, add_mul, add_mul, one_mul, Nat.add_comm (_ * A * B)]
    exact (Int.natAbs_add_le _ _).trans (Nat.add_le_add hp (ih hps))

theorem natAbs_exactSum_le {A B : Nat} (F : Nat) (b : S16) {ps : List (S16 × S16)}
    (h : ∀ p ∈ ps, p.1.toInt.natAbs ≤ A ∧ p.2.toInt.natAbs ≤ B) :
    (exactSum F b ps).natAbs ≤ 2 ^ (15 + F) + ps.length * A * B :=
  (Int.natAbs_add_le _ _).trans (Nat.add_le_add (natAbs_bias_le F b) (natAbs_sum_products_le h))

/-- Settles O28: inside the bounds the exact sum is its own wrap, so the accumulator, the floor and the narrowing lose
nothing. -/
theorem boundedDataGivesTheIdealResult : Obligations.BoundedDataGivesTheIdealResult := by
  intro F A B b ps hF hps hbound
  have hsum := (natAbs_exactSum_le F b hps).trans_lt hbound
  have hacc : accumulate F b ps = exactSum F b ps := by
    rw [accumulate_eq_wrap32]
    exact wrap32_eq_self (by omega) (by omega)
  rw [reduce, reduce, hacc]
  exact ⟨rfl, fun hhi => toInt_wrap16 ((by decide : (-32768 : Int) ≤ 0).trans (le_max_right _ _)) hhi,
    fun hlo hhi => toInt_wrap16 hlo hhi⟩

end Sys2Proof
end

section
/-! Binary32 patterns built by `rne32`, and `dequantize`, whose one rounding has nothing to round (R11, R104). -/

namespace Sys2Proof

theorem F32.rneMag_le (n d : Nat) : F32.rneMag n d ≤ 0x7F800000 := Nat.min_le_right _ _

@[simp] theorem F32.mag_rne32 (neg : Bool) (n d : Nat) : F32.mag (F32.rne32 neg n d) = F32.rneMag n d := by
  have hle := F32.rneMag_le n d
  rw [F32.mag, F32.rne32, BitVec.toNat_ofNat]
  split <;> omega

@[simp] theorem F32.sign_rne32 (neg : Bool) (n d : Nat) : F32.sign (F32.rne32 neg n d) = neg := by
  have hle := F32.rneMag_le n d
  rw [F32.sign, F32.rne32, BitVec.msb_eq_decide, BitVec.toNat_ofNat]
  cases neg
  · exact decide_eq_false (by simp; omega)
  · exact decide_eq_true (by simp; omega)

/-- The value of a normal pattern with exponent field `e + 1` and significand `k` (R11). -/
theorem F32.scaledMag_of_mag {p : F32} {e k : Nat} (hp : F32.mag p = e * 2 ^ 23 + k) (hlo : 2 ^ 23 ≤ k)
    (hhi : k < 2 ^ 24) : F32.scaledMag p = k * 2 ^ e := by
  have hfield : F32.mag p / 2 ^ 23 = e + 1 := by omega
  have hfraction : 2 ^ 23 + F32.mag p % 2 ^ 23 = k := by omega
  rw [F32.scaledMag, hfield, if_neg (Nat.succ_ne_zero e), hfraction, Nat.add_sub_cancel]

theorem log2_significand_mul {e k : Nat} (hlo : 2 ^ 23 ≤ k) (hhi : k < 2 ^ 24) :
    (k * 2 ^ e).log2 = 23 + e := by
  have hpos : 0 < 2 ^ e := by positivity
  refine (Nat.log2_eq_iff (by positivity)).mpr ⟨?_, ?_⟩
  · rw [pow_add]
    exact Nat.mul_le_mul_right _ hlo
  · rw [Nat.add_right_comm, pow_add]
    exact Nat.mul_lt_mul_of_pos_right hhi hpos

/-- A multiple of a positive denominator has nothing to round. -/
theorem roundHalfEven_mul {d : Nat} (hd : 0 < d) (k : Nat) : roundHalfEven (k * d) d = k := by
  simp [roundHalfEven, hd]

/-- A normal number is its own rounding (R11). -/
theorem F32.rneMag_exact {e k : Nat} (hlo : 2 ^ 23 ≤ k) (hhi : k < 2 ^ 24) (he : e < 254) :
    F32.rneMag (k * 2 ^ e) 1 = e * 2 ^ 23 + k := by
  rw [F32.rneMag, Nat.div_one, log2_significand_mul hlo hhi, Nat.add_sub_cancel_left, one_mul,
    roundHalfEven_mul (by positivity)]
  exact min_eq_left (by omega)

/-- The exponent that brings a number of at most 16 bits into the range of a significand. -/
theorem exists_significand {m : Nat} (hpos : 0 < m) (hm : m < 2 ^ 16) :
    ∃ L ≤ 15, 2 ^ 23 ≤ m * 2 ^ (23 - L) ∧ m * 2 ^ (23 - L) < 2 ^ 24 := by
  have hlo : 2 ^ m.log2 ≤ m := Nat.log2_self_le hpos.ne'
  have hhi : m < 2 ^ (m.log2 + 1) := Nat.lt_log2_self
  have hL : m.log2 < 16 := (Nat.pow_lt_pow_iff_right (by decide)).mp (hlo.trans_lt hm)
  refine ⟨m.log2, by omega, ?_, ?_⟩
  · calc 2 ^ 23 = 2 ^ m.log2 * 2 ^ (23 - m.log2) := by rw [← pow_add]; congr 1; omega
      _ ≤ m * 2 ^ (23 - m.log2) := Nat.mul_le_mul_right _ hlo
  · calc m * 2 ^ (23 - m.log2) < 2 ^ (m.log2 + 1) * 2 ^ (23 - m.log2) :=
          Nat.mul_lt_mul_of_pos_right hhi (by positivity)
      _ = 2 ^ 24 := by rw [← pow_add]; congr 1; omega

/-- The pattern of a nonzero fixed-point number of at most 16 bits: its magnitude and its exponent field (R104, R162). -/
theorem F32.ofFixed_normal {F : Nat} (hF : F ≤ 15) {z : Int} (hz : z ≠ 0) (hm : z.natAbs < 2 ^ 16) :
    F32.scaledMag (F32.ofFixed F z) = z.natAbs * 2 ^ (149 - F) ∧
      112 ≤ F32.mag (F32.ofFixed F z) / 2 ^ 23 ∧ F32.mag (F32.ofFixed F z) / 2 ^ 23 ≤ 142 := by
  obtain ⟨L, hL, hlo, hhi⟩ := exists_significand (Int.natAbs_pos.mpr hz) hm
  have hvalue : (z * 2 ^ (149 - F)).natAbs = z.natAbs * 2 ^ (23 - L) * 2 ^ (126 + L - F) := by
    rw [Int.natAbs_mul, Int.natAbs_pow, mul_assoc, ← pow_add]
    congr 2
    omega
  have hmag : F32.mag (F32.ofFixed F z) = (126 + L - F) * 2 ^ 23 + z.natAbs * 2 ^ (23 - L) := by
    rw [F32.ofFixed, F32.ofScaled, F32.mag_rne32, hvalue, F32.rneMag_exact hlo hhi (by omega)]
  refine ⟨?_, by omega, by omega⟩
  rw [F32.scaledMag_of_mag hmag hlo hhi, ← hvalue, Int.natAbs_mul, Int.natAbs_pow]
  rfl

@[simp] theorem F32.ofFixed_zero (F : Nat) : F32.ofFixed F 0 = 0#32 := by
  rw [F32.ofFixed, zero_mul]
  rfl

theorem F32.sign_ofFixed (F : Nat) (z : Int) : F32.sign (F32.ofFixed F z) = decide (z < 0) := by
  rw [F32.ofFixed, F32.ofScaled, F32.sign_rne32, decide_eq_decide]
  exact ⟨fun h => neg_of_mul_neg_left h (by positivity), fun h => mul_neg_of_neg_of_pos h (by positivity)⟩

/-- R104 and R162: the binary32 of `z / 2^F` is exact for every `z` of at most 16 bits. -/
theorem F32.scaled_ofFixed {F : Nat} (hF : F ≤ 15) {z : Int} (hm : z.natAbs < 2 ^ 16) :
    F32.scaled (F32.ofFixed F z) = z * 2 ^ (149 - F) := by
  by_cases hz : z = 0
  · subst hz
    rw [F32.ofFixed_zero, zero_mul]
    decide
  · obtain ⟨hmag, -, -⟩ := F32.ofFixed_normal hF hz hm
    rw [F32.scaled, F32.sign_ofFixed, hmag, Nat.cast_mul, Nat.cast_pow, Nat.cast_ofNat, ← neg_mul]
    by_cases hneg : z < 0
    · rw [if_pos (decide_eq_true hneg), Int.ofNat_natAbs_of_nonpos hneg.le, neg_neg]
    · rw [if_neg (by simpa using hneg), Int.natAbs_of_nonneg (not_lt.mp hneg)]

theorem F32.isFinite_ofFixed {F : Nat} (hF : F ≤ 15) {z : Int} (hm : z.natAbs < 2 ^ 16) :
    F32.isFinite (F32.ofFixed F z) = true := by
  by_cases hz : z = 0
  · rw [hz, F32.ofFixed_zero]
    decide
  · obtain ⟨-, -, hfield⟩ := F32.ofFixed_normal hF hz hm
    exact decide_eq_true (by omega)

theorem natAbs_toInt_lt (q : S16) : q.toInt.natAbs < 2 ^ 16 := by
  have := toInt_bounds q
  omega

theorem scaled_dequantize {F : Nat} (hF : F ≤ 15) (q : S16) :
    F32.scaled (dequantize F q) = q.toInt * 2 ^ (149 - F) := F32.scaled_ofFixed hF (natAbs_toInt_lt q)

theorem isFinite_dequantize {F : Nat} (hF : F ≤ 15) (q : S16) : F32.isFinite (dequantize F q) = true :=
  F32.isFinite_ofFixed hF (natAbs_toInt_lt q)

/-- Settles O29. -/
theorem dequantizeIsExact : Obligations.DequantizeIsExact := by
  refine fun F q hF => ⟨isFinite_dequantize hF q, scaled_dequantize hF q, ?_, fun hq => ?_⟩
  · rintro rfl
    exact F32.ofFixed_zero F
  · have hz : q.toInt ≠ 0 := fun h => hq (BitVec.eq_of_toInt_eq h)
    exact (F32.ofFixed_normal hF hz (natAbs_toInt_lt q)).2

end Sys2Proof
end

section
/-! `quantize`: the integer it rounds to is the nearest one, whatever the tie rule, and QUANT and DEQUANT put
the two conversions into the registers (R102 to R106). -/

namespace Sys2Proof

/-- How a tie rule settles a tie of `x / d` for the integer `n` (R102). -/
def QuantTie.Settles (tie : QuantTie) (x : Int) (d : Nat) (n : Int) : Prop :=
  match tie with
  | .away => x.natAbs < (n * d).natAbs
  | .even => n % 2 = 0

/-- `n` is the integer nearest to `x / d`, a tie going by the rule (R102). -/
structure QuantTie.Nearest (tie : QuantTie) (x : Int) (d : Nat) (n : Int) : Prop where
  near : (2 * (x - n * d)).natAbs ≤ d
  settles : (2 * (x - n * d)).natAbs = d → tie.Settles x d n

theorem QuantTie.Nearest.neg {tie : QuantTie} {x n : Int} {d : Nat} (h : tie.Nearest x d n) :
    tie.Nearest (-x) d (-n) := by
  have hdist : (2 * (-x - -n * d)).natAbs = (2 * (x - n * d)).natAbs := by
    rw [← Int.natAbs_neg]
    congr 1
    ring
  refine ⟨hdist ▸ h.near, fun htie => ?_⟩
  have hsettles := h.settles (hdist ▸ htie)
  cases tie with
  | away => rwa [QuantTie.Settles, neg_mul, Int.natAbs_neg, Int.natAbs_neg]
  | even => rwa [QuantTie.Settles, Int.neg_emod_two]

/-- Two nearest integers of the same multiple of `d` are that multiple's factor. -/
theorem QuantTie.Nearest.eq_of_mul {tie : QuantTie} {m n : Int} {d : Nat} (hd : 0 < d)
    (h : tie.Nearest (m * d) d n) : n = m := by
  have hnear := h.near
  rw [← sub_mul, ← mul_assoc, Int.natAbs_mul, Int.natAbs_natCast] at hnear
  have hlt : (2 * (m - n)).natAbs ≤ 1 := Nat.le_of_mul_le_mul_right (by rwa [one_mul]) hd
  omega

theorem roundHalfUp_nearest (n : Nat) {d : Nat} (hd : 0 < d) : QuantTie.away.Nearest n d (roundHalfUp n d) := by
  have hdiv : 2 * d * ((2 * n + d) / (2 * d)) + (2 * n + d) % (2 * d) = 2 * n + d := Nat.div_add_mod _ _
  have hrem : (2 * n + d) % (2 * d) < 2 * d := Nat.mod_lt _ (by omega)
  rw [mul_assoc, mul_comm d] at hdiv
  constructor
  · rw [roundHalfUp, ← Nat.cast_mul]
    omega
  · rw [QuantTie.Settles, roundHalfUp, ← Nat.cast_mul]
    omega

theorem roundHalfEven_nearest (n : Nat) {d : Nat} (hd : 0 < d) :
    QuantTie.even.Nearest n d (roundHalfEven n d) := by
  have hdiv : n / d * d + n % d = n := Nat.div_add_mod' n d
  have hrem : n % d < d := Nat.mod_lt n hd
  have hsucc : (n / d + 1) * d = n / d * d + d := Nat.succ_mul _ _
  constructor
  · rw [roundHalfEven, ← Nat.cast_mul]
    split_ifs <;> omega
  · rw [QuantTie.Settles, roundHalfEven, ← Nat.cast_mul]
    split_ifs <;> omega

theorem roundTie_nearest (tie : QuantTie) (n : Nat) {d : Nat} (hd : 0 < d) :
    tie.Nearest n d (roundTie tie n d) :=
  match tie with
  | .away => roundHalfUp_nearest n hd
  | .even => roundHalfEven_nearest n hd

/-- R102: what `quantize` wraps is the integer nearest to `real(v) * 2^F`. -/
theorem roundedScaled_nearest (tie : QuantTie) (F : Nat) (v : F32) :
    tie.Nearest (F32.scaled v * 2 ^ F) (2 ^ 149) (roundedScaled tie F v) := by
  have hmag := roundTie_nearest tie (F32.scaledMag v * 2 ^ F) (d := 2 ^ 149) (by positivity)
  rw [Nat.cast_mul, Nat.cast_pow, Nat.cast_ofNat] at hmag
  rw [roundedScaled, F32.scaled]
  cases F32.sign v with
  | false => exact hmag
  | true => simpa using hmag.neg

theorem quantize_eq_some {tie : QuantTie} {F : Nat} {v : F32} {q : S16} (h : quantize tie F v = some q) :
    q = wrap16 (roundedScaled tie F v) := by
  rw [quantize] at h
  split at h
  · exact (Option.some.inj h).symm
  · cases h

theorem quantize_of_isFinite {v : F32} (tie : QuantTie) (F : Nat) (h : F32.isFinite v = true) :
    quantize tie F v = some (wrap16 (roundedScaled tie F v)) := if_pos h

/-- `real(q) * 2^F` is the integer `q` again. -/
theorem mul_two_pow_unscale {F : Nat} (hF : F ≤ 149) (n : Int) : n * 2 ^ (149 - F) * 2 ^ F = n * 2 ^ 149 := by
  rw [mul_assoc, ← pow_add, Nat.sub_add_cancel hF]

theorem roundedScaled_dequantize (tie : QuantTie) {F : Nat} (hF : F ≤ 15) (q : S16) :
    roundedScaled tie F (dequantize F q) = q.toInt := by
  have hnearest := roundedScaled_nearest tie F (dequantize F q)
  rw [scaled_dequantize hF, mul_two_pow_unscale (by omega)] at hnearest
  exact hnearest.eq_of_mul (by positivity)

/-- Half a step: the nearest integer `n` to `x * 2^F`, scaled back, is within `2^-(F+1)` of `x`. -/
theorem QuantTie.Nearest.natAbs_sub_le {tie : QuantTie} {F : Nat} (hF : F < 149) {x n : Int}
    (h : tie.Nearest (x * 2 ^ F) (2 ^ 149) n) :
    (n * 2 ^ (149 - F) - x).natAbs ≤ 2 ^ (149 - (F + 1)) := by
  have hscaled : 2 * (x * 2 ^ F - n * (2 ^ 149 : Nat)) = -((n * 2 ^ (149 - F) - x) * 2 ^ (F + 1)) := by
    rw [Nat.cast_pow, Nat.cast_ofNat, ← mul_two_pow_unscale hF.le]
    ring
  have hstep : (2 : Nat) ^ 149 = 2 ^ (149 - (F + 1)) * 2 ^ (F + 1) := by
    rw [← pow_add, Nat.sub_add_cancel hF]
  have hnear := h.near
  rw [hscaled, Int.natAbs_neg, Int.natAbs_mul, Int.natAbs_pow, hstep] at hnear
  exact Nat.le_of_mul_le_mul_right hnear (by positivity)

/-- Settles O30: a dequantized number is its own nearest integer, and a nearest integer is at most half a step away. -/
theorem quantizeRoundTrip : Obligations.QuantizeRoundTrip := by
  refine fun tie F hF => ⟨fun q => ?_, fun v q hq hlo hhi => ?_⟩
  · rw [quantize_of_isFinite tie F (isFinite_dequantize hF q), roundedScaled_dequantize tie hF]
    exact congrArg some BitVec.ofInt_toInt
  · rw [scaled_dequantize hF, quantize_eq_some hq, toInt_wrap16 hlo hhi]
    exact (roundedScaled_nearest tie F v).natAbs_sub_le (by omega)

theorem BuildConfig.F_le (c : BuildConfig) : c.F.val ≤ 15 := Nat.le_of_lt_succ c.F.isLt

end Sys2Proof

namespace Sys2Proof.Machine

theorem State.csr_qOut_eq_append (s : State) : s.csr .qOut = 0#16 ++ s.qOut :=
  BitVec.setWidth_eq_append (by decide)

/-- The end of a command whose body `b` writes no memory and leaves STATUS and the host's fields alone (R37, R191). -/
theorem State.complete_frame {s b : State} (hstatus : b.status = s.status) (hmem : s.sameMem b)
    (hprob : s.sameProb b) (hhost : s.sameHost b) :
    s.completedFrom b.complete ∧ s.sameMem b.complete ∧ s.sameProb b.complete ∧ s.sameHost b.complete := by
  refine ⟨?_, fun sp i => ?_, hprob, hhost⟩
  · rw [State.completedFrom, State.complete_status, hstatus, Status.complete]
  · rw [State.complete_read16, hmem]

theorem quantBody_qOut_of_isFinite {s : State} (h : F32.isFinite s.qIn = true) :
    (quantBody s).qOut = wrap16 (roundedScaled s.cfg.quantTie s.cfg.F.val s.qIn) := by
  rw [quantBody_qOut, quantize_of_isFinite _ _ h, Option.getD_some]

/-- Settles O31: the integer is the one that `quantize` rounds to. -/
theorem quantComputes : Obligations.QuantComputes := by
  refine ⟨decode_encode .quant, rfl, fun s => ⟨_, exec_quant s, fun hfin => ?_,
    fun _ => ⟨_, State.csr_qOut_eq_append _⟩, ?_⟩⟩
  · have hnearest := roundedScaled_nearest s.cfg.quantTie s.cfg.F.val s.qIn
    refine ⟨_, ?_, hnearest.near, hnearest.settles⟩
    rw [State.csr_qOut_eq_append, State.complete_qOut, quantBody_qOut_of_isFinite hfin, wrap16]
  · obtain ⟨hdone, hmem, hprob, hhost⟩ := State.complete_frame (quantBody_status s) (quantBody_read16 s)
      (quantBody_readProb s) ⟨quantBody_events s, quantBody_rdata s⟩
    refine ⟨hdone, hmem, hprob, hhost, ?_, ?_, ?_, ?_, ?_⟩
    · rw [State.complete_cfg, quantBody_cfg]
    · rw [State.complete_qIn, quantBody_qIn]
    · rw [State.complete_dqIn, quantBody_dqIn]
    · rw [State.complete_dqOut, quantBody_dqOut]
    · rw [State.complete_amax, quantBody_amax]

/-- Settles O32: DQ_OUT holds a dequantized number, so R104 gives its value. -/
theorem dequantComputes : Obligations.DequantComputes := by
  refine ⟨decode_encode .dequant, rfl, fun s => ⟨_, exec_dequant s, ?_, ?_, ?_, ?_⟩⟩
  · rw [State.csr, State.complete_dqOut, dequantBody_dqOut]
  · rw [State.complete_dqOut, dequantBody_dqOut, isFinite_dequantize s.cfg.F_le]
  · rw [State.complete_dqOut, dequantBody_dqOut, scaled_dequantize s.cfg.F_le]
  · obtain ⟨hdone, hmem, hprob, hhost⟩ := State.complete_frame (dequantBody_status s) (dequantBody_read16 s)
      (dequantBody_readProb s) ⟨dequantBody_events s, dequantBody_rdata s⟩
    refine ⟨hdone, hmem, hprob, hhost, ?_, ?_, ?_, ?_, ?_⟩
    · rw [State.complete_cfg, dequantBody_cfg]
    · rw [State.complete_qIn, dequantBody_qIn]
    · rw [State.complete_qOut, dequantBody_qOut]
    · rw [State.complete_dqIn, dequantBody_dqIn]
    · rw [State.complete_amax, dequantBody_amax]

end Sys2Proof.Machine
end

section
/-! The convolution over operands that hold values: the value of one output element (R120), which CONV1,
CONV2 and the identity kernel then take at their own shapes (R121, R122, R124). -/

namespace Sys2Proof

/-! ### The sum of products -/

/-- The exact sum of products of one output element (R120). -/
def ConvShape.windowSum (g : ConvShape) (inp ker : Nat → S16) (k y x : Nat) : Int :=
  ∑ z ∈ Finset.range g.Z, ∑ ky ∈ Finset.range g.KH, ∑ kx ∈ Finset.range g.KW,
    (inp (idx3 g.H g.W z (y + ky) (x + kx))).toInt * (ker (idx4 g.Z g.KH g.KW k z ky kx)).toInt

/-- The inputs and the weights that one output element reads hold the values that `a` and `w` give (R65, R120). -/
def ConvShape.WindowHolds (g : ConvShape) (inp ker : Nat → Option S16) (a w : Nat → S16) (k y x : Nat) : Prop :=
  ∀ z ky kx : Nat, z < g.Z → ky < g.KH → kx < g.KW →
    inp (idx3 g.H g.W z (y + ky) (x + kx)) = some (a (idx3 g.H g.W z (y + ky) (x + kx))) ∧
      ker (idx4 g.Z g.KH g.KW k z ky kx) = some (w (idx4 g.Z g.KH g.KW k z ky kx))

/-- The list of taps runs over the three extents. -/
theorem ConvShape.sum_map_taps (g : ConvShape) (f : Nat × Nat × Nat → Int) :
    (g.taps.map f).sum =
      ∑ z ∈ Finset.range g.Z, ∑ ky ∈ Finset.range g.KH, ∑ kx ∈ Finset.range g.KW, f (z, ky, kx) := by
  have hrange (n : Nat) (h : Nat → Int) : ((List.range n).map h).sum = ∑ i ∈ Finset.range n, h i := rfl
  simp only [ConvShape.taps, List.flatMap, List.map_flatten, List.sum_flatten, List.map_map,
    Function.comp_def, hrange]

/-- CONV1 has the one input channel 0, which adds nothing to an index (R121). -/
theorem ConvShape.windowSum_conv1Shape (a w : Nat → S16) (k y x : Nat) :
    conv1Shape.windowSum a w k y x = ∑ ky ∈ Finset.range 5, ∑ kx ∈ Finset.range 5,
      (a ((y + ky) * 28 + (x + kx))).toInt * (w ((k * 5 + ky) * 5 + kx)).toInt := by
  simp [ConvShape.windowSum, conv1Shape, idx3, idx4]

/-- A kernel that is `v` at one tap and 0 elsewhere leaves one product of the sum. -/
theorem ConvShape.windowSum_of_single_tap {g : ConvShape} {inp ker : Nat → S16} {k z0 ky0 kx0 : Nat} {v : S16}
    (hz : z0 < g.Z) (hky : ky0 < g.KH) (hkx : kx0 < g.KW)
    (hker : ∀ z ky kx : Nat, z < g.Z → ky < g.KH → kx < g.KW →
      ker (idx4 g.Z g.KH g.KW k z ky kx) = if z = z0 ∧ ky = ky0 ∧ kx = kx0 then v else 0#16) (y x : Nat) :
    g.windowSum inp ker k y x = (inp (idx3 g.H g.W z0 (y + ky0) (x + kx0))).toInt * v.toInt := by
  have hterm : ∀ z ∈ Finset.range g.Z, ∀ ky ∈ Finset.range g.KH, ∀ kx ∈ Finset.range g.KW,
      (inp (idx3 g.H g.W z (y + ky) (x + kx))).toInt * (ker (idx4 g.Z g.KH g.KW k z ky kx)).toInt =
        if kx = kx0 then if ky = ky0 then if z = z0 then
          (inp (idx3 g.H g.W z (y + ky) (x + kx))).toInt * v.toInt else 0 else 0 else 0 := by
    intro z hz ky hky kx hkx
    rw [hker z ky kx (Finset.mem_range.mp hz) (Finset.mem_range.mp hky) (Finset.mem_range.mp hkx)]
    grind
  rw [ConvShape.windowSum, Finset.sum_congr rfl fun z hz => Finset.sum_congr rfl fun ky hky =>
    Finset.sum_congr rfl (hterm z hz ky hky)]
  -- the innermost sum runs over `kx`, so its test stands outermost in `hterm`
  simp [hz, hky, hkx]

/-! ### Rescaling by `2^F` -/

theorem asr_mul_two_pow (n : Int) (F : Nat) : asr (n * 2 ^ F) F = n :=
  Int.mul_ediv_cancel n (by positivity)

theorem toInt_ofNat_of_le {n : Nat} (hn : n ≤ 32767) : (BitVec.ofNat 16 n).toInt = n := by
  rw [← BitVec.ofInt_natCast]
  exact toInt_wrap16 (by omega) (by omega)

theorem toInt_ofNat_two_pow {F : Nat} (hF : F ≤ 14) : (BitVec.ofNat 16 (2 ^ F)).toInt = 2 ^ F := by
  have hpow : 2 ^ F ≤ 2 ^ 14 := Nat.pow_le_pow_right (by decide) hF
  rw [toInt_ofNat_of_le (by omega), Nat.cast_pow, Nat.cast_ofNat]

/-- A raw value moved up by `F` places fits the accumulator, and moved down again it is itself. -/
theorem asr_wrap32_mul_two_pow {F : Nat} (hF : F ≤ 15) (v : S16) : asr (wrap32 (v.toInt * 2 ^ F)) F = v.toInt := by
  have hfits : (v.toInt * 2 ^ F).natAbs ≤ 2 ^ 30 :=
    (natAbs_bias_le F v).trans (Nat.pow_le_pow_right (by decide) (by omega))
  rw [wrap32_eq_self (by omega) (by omega), asr_mul_two_pow]

end Sys2Proof

namespace Sys2Proof.Machine

/-! ### One output element -/

section Operator

variable {F : Nat} {g : ConvShape} {inp ker bias : Nat → Option S16} {a w : Nat → S16} {b : S16} {k y x : Nat}

theorem convPairs_eq_map_some (h : g.WindowHolds inp ker a w k y x) :
    convPairs g inp ker k y x = (g.taps.map fun t =>
      (a (idx3 g.H g.W t.1 (y + t.2.1) (x + t.2.2)), w (idx4 g.Z g.KH g.KW k t.1 t.2.1 t.2.2))).map some := by
  rw [convPairs, List.map_map]
  refine List.map_congr_left ?_
  rintro ⟨z, ky, kx⟩ ht
  obtain ⟨hz, hky, hkx⟩ := ConvShape.mem_taps.mp ht
  obtain ⟨hinp, hker⟩ := h z ky kx hz hky hkx
  simp only [hinp, hker, operandPair, Function.comp_apply]

/-- R120 where every operand that the output element reads holds a value. -/
theorem conv2d_eq_some (hbias : bias k = some b) (h : g.WindowHolds inp ker a w k y x) :
    conv2d F g inp ker bias k y x =
      some (wrap16 (max (asr (wrap32 (b.toInt * 2 ^ F + g.windowSum a w k y x)) F) 0)) := by
  rw [conv2d, hbias, convPairs_eq_map_some h, reduceOperands_some, reduce, accumulate_eq_wrap32, exactSum,
    List.map_map, g.sum_map_taps]
  rfl

end Operator

/-! ### The stages -/

/-- A stage that fills a space stores the result of each output that has one. -/
theorem State.read16_fill16_of_some {s : State} {sp : Space16} {f : Nat → Option S16} {i : Nat} {v : S16}
    (hi : i < sp.size) (hf : f i = some v) : (s.fill16 sp f).read16 sp i = some v := by
  rw [State.read16_fill16, if_pos rfl, if_pos hi, hf, Option.getD_some]

/-- The end of a command whose one stage fills a space: STATUS is that of completion, and nothing else changes but that
space (R37, R191). -/
theorem State.fill16_complete_frame (s : State) (sp : Space16) (f : Nat → Option S16) :
    s.completedFrom (s.fill16 sp f).complete ∧ s.sameMemBut (s.fill16 sp f).complete sp ∧
      s.sameProb (s.fill16 sp f).complete ∧ s.sameRegs (s.fill16 sp f).complete ∧
      s.sameHost (s.fill16 sp f).complete := by
  refine ⟨?_, fun sp' i hne => ?_, fun i => ?_, ?_, ?_⟩
  · rw [State.completedFrom, State.complete_status, State.fill16_status, Status.complete]
  · rw [State.complete_read16, State.read16_fill16_other hne]
  · rw [State.complete_readProb, State.fill16_readProb]
  · simp [State.sameRegs]
  · simp [State.sameHost]

/-- The output element that a convolution stage stores where its operands hold values. -/
theorem State.read16_fill16_conv2dAt {s : State} {sp : Space16} {F : Nat} {g : ConvShape}
    {inp ker bias : Nat → Option S16} {a w : Nat → S16} {b : S16} {k y x : Nat} (hsize : sp.size = g.outputs)
    (hk : k < g.K) (hy : y < g.OH) (hx : x < g.OW) (hbias : bias k = some b) (h : g.WindowHolds inp ker a w k y x) :
    (s.fill16 sp (conv2dAt F g inp ker bias)).read16 sp (idx3 g.OH g.OW k y x) =
      some (wrap16 (max (asr (wrap32 (b.toInt * 2 ^ F + g.windowSum a w k y x)) F) 0)) :=
  State.read16_fill16_of_some (hsize ▸ idx3_lt hk hy hx) ((conv2dAt_idx3 hy hx).trans (conv2d_eq_some hbias h))

/-- Settles O34: R120 at the shape of CONV1, whose channel index is 0. -/
theorem conv1Computes : Obligations.Conv1Computes := by
  refine ⟨decode_encode .conv1, rfl, fun s img ker bias =>
    ⟨_, exec_conv1 s, ?_, State.fill16_complete_frame s .c1 _⟩⟩
  intro k y x hk hy hx hbias hops
  have hwindow : conv1Shape.WindowHolds (s.read16 .img) (s.read16 .wC1) img ker k y x := by
    intro z ky kx hz hky hkx
    obtain rfl : z = 0 := Nat.lt_one_iff.mp hz
    simpa [idx3, idx4, conv1Shape] using hops ky kx hky hkx
  rw [State.complete_read16, ← ConvShape.windowSum_conv1Shape]
  exact State.read16_fill16_conv2dAt (g := conv1Shape) rfl hk hy hx hbias hwindow

/-- Settles O35: R120 at the shape of CONV2. -/
theorem conv2Computes : Obligations.Conv2Computes := by
  refine ⟨decode_encode .conv2, rfl, fun s p1 ker bias =>
    ⟨_, exec_conv2 s, ?_, State.fill16_complete_frame s .c2 _⟩⟩
  intro k y x hk hy hx hbias hops
  rw [State.complete_read16]
  exact State.read16_fill16_conv2dAt (g := conv2Shape) rfl hk hy hx hbias hops

/-! ### The identity kernel -/

/-- Settles O36: the sum is the one product with `2^F`, which the rescaling takes back. -/
theorem identityKernelCopies : Obligations.IdentityKernelCopies := by
  intro F g inp ker k z0 hF _ hKH hKW hz0 hker y x
  have hsum : g.windowSum inp ker k y x = (inp (idx3 g.H g.W z0 (y + 2) (x + 2))).toInt * 2 ^ F := by
    rw [ConvShape.windowSum_of_single_tap (ky0 := 2) (kx0 := 2) hz0 (by omega) (by omega)
      (by simpa only [hKH, hKW] using hker), toInt_ofNat_two_pow hF]
  refine ⟨_, conv2d_eq_some rfl fun _ _ _ _ _ _ => ⟨rfl, rfl⟩, ?_⟩
  obtain ⟨hlo, hhi⟩ := toInt_bounds (inp (idx3 g.H g.W z0 (y + 2) (x + 2)))
  rw [hsum, BitVec.toInt_zero, zero_mul, zero_add, asr_wrap32_mul_two_pow (by omega), toInt_wrap16]
  · exact le_max_of_le_left hlo
  · exact max_le hhi (by decide)

end Sys2Proof.Machine
end

section
/-! The max-pool over a window that holds values: the result of one output element (R135), which POOL1 and POOL2 then
take at their own shapes (R136, R137). -/

namespace Sys2Proof.Machine

/-! ### The maximum of a window -/

/-- `v` is one of the four elements, and as a signed integer none of them is greater (R135). -/
def IsMaxOf4 (v a b c d : S16) : Prop :=
  (v = a ∨ v = b ∨ v = c ∨ v = d) ∧
    a.toInt ≤ v.toInt ∧ b.toInt ≤ v.toInt ∧ c.toInt ≤ v.toInt ∧ d.toInt ≤ v.toInt

theorem maxSigned_eq_or (a b : S16) : maxSigned a b = a ∨ maxSigned a b = b := by
  rw [maxSigned]
  split
  next => exact .inr rfl
  next => exact .inl rfl

theorem toInt_maxSigned (a b : S16) : (maxSigned a b).toInt = max a.toInt b.toInt := by
  rw [maxSigned, max_def_lt, apply_ite BitVec.toInt]

/-- The elements are compared in two pairs: the result is the winner of a pair, and each loser is at most its winner. -/
theorem isMaxOf4_maxSigned (a b c d : S16) :
    IsMaxOf4 (maxSigned (maxSigned a b) (maxSigned c d)) a b c d := by
  constructor
  · obtain hv | hv := maxSigned_eq_or (maxSigned a b) (maxSigned c d) <;> rw [hv]
    · exact (maxSigned_eq_or a b).imp_right .inl
    · exact .inr (.inr (maxSigned_eq_or c d))
  · simp only [toInt_maxSigned]
    omega

/-! ### One output element -/

/-- The window of an output element starts at `b`, the index of its first element, and has its second row `g.W` elements
further on (R51, R135). -/
theorem maxpool2_eq_max4 (g : PoolShape) (inp : Nat → Option S16) {c y x b : Nat}
    (hb : b = idx3 g.H g.W c (2 * y) (2 * x)) :
    maxpool2 g inp c y x = max4 (inp b) (inp (b + 1)) (inp (b + g.W)) (inp (b + (g.W + 1))) := by
  have hright : idx3 g.H g.W c (2 * y) (2 * x + 1) = b + 1 := by rw [hb, idx3, idx3, Nat.add_assoc]
  have hbelow : idx3 g.H g.W c (2 * y + 1) (2 * x) = b + g.W := by rw [hb, idx3, idx3]; ring
  have hdiagonal : idx3 g.H g.W c (2 * y + 1) (2 * x + 1) = b + (g.W + 1) := by rw [hb, idx3, idx3]; ring
  rw [maxpool2, ← hb, hright, hbelow, hdiagonal]

section Operator

variable {g : PoolShape} {inp : Nat → Option S16} {a : Nat → S16} {c y x b : Nat}

/-- R135 where the four elements of the window hold values (R65). -/
theorem maxpool2_eq_some (hb : b = idx3 g.H g.W c (2 * y) (2 * x))
    (h : ∀ d : Nat, d = 0 ∨ d = 1 ∨ d = g.W ∨ d = g.W + 1 → inp (b + d) = some (a (b + d))) :
    ∃ v : S16, maxpool2 g inp c y x = some v ∧
      IsMaxOf4 v (a b) (a (b + 1)) (a (b + g.W)) (a (b + (g.W + 1))) := by
  refine ⟨_, ?_, isMaxOf4_maxSigned _ _ _ _⟩
  have hfirst : inp b = some (a b) := h 0 (.inl rfl)
  rw [maxpool2_eq_max4 g inp hb, hfirst, h 1 (by simp), h g.W (by simp), h (g.W + 1) (by simp), max4]

/-! ### The stages -/

/-- The output element that a max-pool stage leaves, once its command has completed, where its window holds values. -/
theorem State.read16_complete_fill16_maxpool2At {s : State} {sp : Space16} (hsize : sp.size = g.outputs)
    (hc : c < g.C) (hy : y < g.H / 2) (hx : x < g.W / 2) (hb : b = idx3 g.H g.W c (2 * y) (2 * x))
    (h : ∀ d : Nat, d = 0 ∨ d = 1 ∨ d = g.W ∨ d = g.W + 1 → inp (b + d) = some (a (b + d))) :
    ∃ v : S16,
      (s.fill16 sp (maxpool2At g inp)).complete.read16 sp (idx3 (g.H / 2) (g.W / 2) c y x) = some v ∧
        IsMaxOf4 v (a b) (a (b + 1)) (a (b + g.W)) (a (b + (g.W + 1))) := by
  obtain ⟨v, hv, hmax⟩ := maxpool2_eq_some hb h
  refine ⟨v, ?_, hmax⟩
  rw [State.complete_read16]
  exact State.read16_fill16_of_some (hsize ▸ idx3_lt hc hy hx) ((maxpool2At_idx3 hy hx).trans hv)

end Operator

/-- Settles O38: R135 at the shape of POOL1. -/
theorem pool1Computes : Obligations.Pool1Computes :=
  ⟨decode_encode .pool1, rfl, fun s _ => ⟨_, exec_pool1 s,
    fun _ _ _ _ hc hy hx hb hwindow =>
      State.read16_complete_fill16_maxpool2At (g := pool1Shape) rfl hc hy hx hb hwindow,
    State.fill16_complete_frame s .p1 _⟩⟩

/-- Settles O39: R135 at the shape of POOL2. -/
theorem pool2Computes : Obligations.Pool2Computes :=
  ⟨decode_encode .pool2, rfl, fun s _ => ⟨_, exec_pool2 s,
    fun _ _ _ _ hc hy hx hb hwindow =>
      State.read16_complete_fill16_maxpool2At (g := pool2Shape) rfl hc hy hx hb hwindow,
    State.fill16_complete_frame s .p2 _⟩⟩

end Sys2Proof.Machine
end

section
/-! The dense operator over operands that hold values: the value of one output element (R145), which FC1, FC2 and the
row with one weight then take at their own shapes (R146, R147, R149). -/

namespace Sys2Proof

/-! ### The sum of products -/

/-- The exact sum of products of output unit `k` (R145). -/
def DenseShape.rowSum (g : DenseShape) (a w : Nat → S16) (k : Nat) : Int :=
  ∑ i ∈ Finset.range g.In, (a i).toInt * (w (idx2 g.In k i)).toInt

/-- The inputs and the weights that output unit `k` reads hold the values that `a` and `w` give (R65, R145). -/
def DenseShape.RowHolds (g : DenseShape) (x wt : Nat → Option S16) (a w : Nat → S16) (k : Nat) : Prop :=
  ∀ i : Nat, i < g.In → x i = some (a i) ∧ wt (idx2 g.In k i) = some (w (idx2 g.In k i))

/-- A row of weights that is `v` at one column and 0 elsewhere leaves one product of the sum. -/
theorem DenseShape.rowSum_of_single_weight {g : DenseShape} {a w : Nat → S16} {k c : Nat} {v : S16} (hc : c < g.In)
    (hw : ∀ i : Nat, i < g.In → w (idx2 g.In k i) = if i = c then v else 0#16) :
    g.rowSum a w k = (a c).toInt * v.toInt := by
  rw [DenseShape.rowSum, Finset.sum_eq_single_of_mem c (Finset.mem_range.mpr hc), hw c hc, if_pos rfl]
  intro i hi hne
  rw [hw i (Finset.mem_range.mp hi), if_neg hne, BitVec.toInt_zero, mul_zero]

end Sys2Proof

namespace Sys2Proof.Machine

/-! ### The two ends of a reduction -/

theorem finishReduce_relu (F : Nat) (acc : Int) : finishReduce F acc true = wrap16 (max (asr acc F) 0) := rfl

theorem finishReduce_noRelu (F : Nat) (acc : Int) : finishReduce F acc false = wrap16 (asr acc F) := rfl

/-! ### One output element -/

section Operator

variable {F : Nat} {g : DenseShape} {x wt bias : Nat → Option S16} {a w : Nat → S16} {b : S16} {k : Nat}

theorem densePairs_eq_map_some (h : g.RowHolds x wt a w k) :
    densePairs g x wt k = ((List.range g.In).map fun i => (a i, w (idx2 g.In k i))).map some := by
  rw [densePairs, List.map_map]
  refine List.map_congr_left fun i hi => ?_
  obtain ⟨hx, hwt⟩ := h i (List.mem_range.mp hi)
  simp only [hx, hwt, operandPair, Function.comp_apply]

/-- R145 where every operand that the output unit reads holds a value. -/
theorem dense_eq_some (r : Bool) (hbias : bias k = some b) (h : g.RowHolds x wt a w k) :
    dense F g x wt bias r k = some (finishReduce F (wrap32 (b.toInt * 2 ^ F + g.rowSum a w k)) r) := by
  rw [dense, hbias, densePairs_eq_map_some h, reduceOperands_some, reduce, accumulate_eq_wrap32, exactSum,
    List.map_map]
  rfl

/-- The output element that a dense stage leaves, once its command has completed, where its operands hold values. -/
theorem State.read16_complete_fill16_dense {s : State} {sp : Space16} (r : Bool) (hk : k < sp.size)
    (hbias : bias k = some b) (h : g.RowHolds x wt a w k) :
    (s.fill16 sp (dense F g x wt bias r)).complete.read16 sp k =
      some (finishReduce F (wrap32 (b.toInt * 2 ^ F + g.rowSum a w k)) r) := by
  rw [State.complete_read16]
  exact State.read16_fill16_of_some hk (dense_eq_some r hbias h)

end Operator

/-! ### The stages -/

/-- Settles O40: R145 at the shape of FC1, with ReLU. -/
theorem fc1Computes : Obligations.Fc1Computes := by
  refine ⟨decode_encode .fc1, rfl, fun s p2 wt bias =>
    ⟨_, exec_fc1 s, fun k hk hbias hops => ?_, State.fill16_complete_frame s .h1 _⟩⟩
  rw [← finishReduce_relu]
  exact State.read16_complete_fill16_dense (g := fc1Shape) true hk hbias hops

/-- Settles O41: R145 at the shape of FC2, without ReLU. -/
theorem fc2Computes : Obligations.Fc2Computes := by
  refine ⟨decode_encode .fc2, rfl, fun s h1 wt bias =>
    ⟨_, exec_fc2 s, fun k hk hbias hops => ?_, State.fill16_complete_frame s .logit _⟩⟩
  rw [← finishReduce_noRelu]
  exact State.read16_complete_fill16_dense (g := fc2Shape) false hk hbias hops

/-! ### The row with one weight -/

/-- Settles O42: the sum is the one product with `2^F`, which the rescaling takes back. -/
theorem identityRowCopies : Obligations.IdentityRowCopies := by
  intro F g x wt k c hF hc hrow
  have hasr : asr (wrap32 ((0#16 : S16).toInt * 2 ^ F + g.rowSum x wt k)) F = (x c).toInt := by
    rw [DenseShape.rowSum_of_single_weight hc hrow, toInt_ofNat_two_pow hF, BitVec.toInt_zero, zero_mul, zero_add,
      asr_wrap32_mul_two_pow (by omega)]
  have hholds : g.RowHolds (fun i => some (x i)) (fun i => some (wt i)) x wt k := fun _ _ => ⟨rfl, rfl⟩
  obtain ⟨hlo, hhi⟩ := toInt_bounds (x c)
  refine ⟨?_, _, dense_eq_some true rfl hholds, ?_⟩
  · rw [dense_eq_some false rfl hholds, finishReduce_noRelu, hasr, wrap16, BitVec.ofInt_toInt]
  · rw [finishReduce_relu, hasr, toInt_wrap16 (le_max_of_le_left hlo) (max_le hhi (by decide))]

end Sys2Proof.Machine
end

section
/-! The values of binary32 patterns: they rise with the pattern, so the ordered comparisons are those of the real values
(R11). -/

namespace Sys2Proof

/-! ### The value of a pattern without its sign -/

/-- The value, in units of 2^-149, of the non-negative pattern `m` (R11). The patterns above the finite ones go on in the
same way. -/
def F32.magValue (m : Nat) : Nat :=
  if m / 2 ^ 23 = 0 then m % 2 ^ 23 else (2 ^ 23 + m % 2 ^ 23) * 2 ^ (m / 2 ^ 23 - 1)

theorem F32.scaledMag_eq_magValue (p : F32) : F32.scaledMag p = F32.magValue (F32.mag p) := rfl

/-- A pattern is a significand and a number of places; with no place the significand may be a subnormal's. -/
theorem F32.exists_significand_places (m : Nat) :
    ∃ e k, m = e * 2 ^ 23 + k ∧ k < 2 ^ 24 ∧ (e = 0 ∨ 2 ^ 23 ≤ k) := by
  by_cases h : m / 2 ^ 23 = 0
  · exact ⟨0, m, by omega, by omega, .inl rfl⟩
  · exact ⟨m / 2 ^ 23 - 1, 2 ^ 23 + m % 2 ^ 23, by omega, by omega, .inr (by omega)⟩

/-- The value of significand `k` at `e` places. The significand `2^24`, to which a number may round up, is the carry into
the exponent field. -/
theorem F32.magValue_places {e k : Nat} (hhi : k ≤ 2 ^ 24) (hlo : e = 0 ∨ 2 ^ 23 ≤ k) :
    F32.magValue (e * 2 ^ 23 + k) = k * 2 ^ e := by
  rw [F32.magValue]
  rcases Nat.lt_or_ge k (2 ^ 23) with hsub | hnormal
  · obtain rfl : e = 0 := by omega
    rw [if_pos (by omega), pow_zero, mul_one]
    omega
  rw [if_neg (by omega)]
  rcases hhi.lt_or_eq with hlt | rfl
  · congr 2 <;> omega
  · rw [show (e * 2 ^ 23 + 2 ^ 24) % 2 ^ 23 = 0 by omega,
      show (e * 2 ^ 23 + 2 ^ 24) / 2 ^ 23 - 1 = e + 1 by omega, pow_succ]
    ring

theorem F32.magValue_strictMono : StrictMono F32.magValue := by
  refine strictMono_nat_of_lt_succ fun m => ?_
  obtain ⟨e, k, rfl, hhi, hlo⟩ := F32.exists_significand_places m
  rw [add_assoc, F32.magValue_places hhi.le hlo, F32.magValue_places hhi (by omega)]
  exact Nat.mul_lt_mul_of_pos_right (Nat.lt_add_one k) (by positivity)

/-! ### The order of the patterns -/

theorem F32.isFinite_iff {p : F32} : F32.isFinite p = true ↔ F32.mag p < 0x7F800000 := decide_eq_true_iff

theorem F32.isNaN_of_isFinite {p : F32} (h : F32.isFinite p = true) : F32.isNaN p = false :=
  decide_eq_false (F32.isFinite_iff.mp h).not_gt

theorem F32.isInf_of_isFinite {p : F32} (h : F32.isFinite p = true) : F32.isInf p = false :=
  decide_eq_false (F32.isFinite_iff.mp h).ne

theorem F32.natAbs_scaled (p : F32) : (F32.scaled p).natAbs = F32.magValue (F32.mag p) := by
  rw [F32.scaled, F32.scaledMag_eq_magValue]
  split <;> simp

/-- Key and value are the magnitude and its value under one sign. -/
theorem F32.key_lt_key_iff {a b : F32} : F32.key a < F32.key b ↔ F32.scaled a < F32.scaled b := by
  have hzero : F32.magValue 0 = 0 := rfl
  have hab := F32.magValue_strictMono.lt_iff_lt (a := F32.mag a) (b := F32.mag b)
  have hba := F32.magValue_strictMono.lt_iff_lt (a := F32.mag b) (b := F32.mag a)
  have ha := F32.magValue_strictMono.lt_iff_lt (a := 0) (b := F32.mag a)
  have hb := F32.magValue_strictMono.lt_iff_lt (a := 0) (b := F32.mag b)
  rw [F32.key, F32.key, F32.scaled, F32.scaled, F32.scaledMag_eq_magValue, F32.scaledMag_eq_magValue]
  split <;> split <;> omega

theorem F32.flt_iff {a b : F32} :
    F32.flt a b = true ↔ F32.isNaN a = false ∧ F32.isNaN b = false ∧ F32.key a < F32.key b := by
  simp [F32.flt, and_assoc]

theorem F32.fgt_iff {a b : F32} :
    F32.fgt a b = true ↔ F32.isNaN a = false ∧ F32.isNaN b = false ∧ F32.key b < F32.key a := by
  rw [F32.fgt, F32.flt_iff, and_left_comm]

theorem F32.flt_of_isFinite {a b : F32} (ha : F32.isFinite a = true) (hb : F32.isFinite b = true) :
    F32.flt a b = decide (F32.scaled a < F32.scaled b) := by
  rw [Bool.eq_iff_iff, F32.flt_iff, F32.key_lt_key_iff, decide_eq_true_iff]
  simp [F32.isNaN_of_isFinite ha, F32.isNaN_of_isFinite hb]

theorem F32.flt_of_isNaN {a b : F32} (h : F32.isNaN a = true ∨ F32.isNaN b = true) : F32.flt a b = false := by
  obtain h | h := h <;> simp [F32.flt, h]

theorem F32.flt_of_key {a b : F32} (ha : F32.isNaN a = false) (hb : F32.isNaN b = false) :
    F32.flt a b = decide (F32.key a < F32.key b) := by
  simp [F32.flt, ha, hb]

/-- A finite pattern lies strictly between the keys of the two infinities. -/
theorem F32.key_bounds_of_isFinite {a : F32} (h : F32.isFinite a = true) :
    F32.key 0xFF800000#32 < F32.key a ∧ F32.key a < F32.key 0x7F800000#32 := by
  have hmag := F32.isFinite_iff.mp h
  have hneg : F32.key 0xFF800000#32 = -0x7F800000 := by decide
  have hpos : F32.key 0x7F800000#32 = 0x7F800000 := by decide
  rw [hneg, hpos, F32.key]
  split <;> omega

theorem F32.flt_infinity_of_isFinite {a : F32} (h : F32.isFinite a = true) :
    F32.flt a 0x7F800000#32 = true ∧ F32.flt 0x7F800000#32 a = false ∧
      F32.flt 0xFF800000#32 a = true ∧ F32.flt a 0xFF800000#32 = false := by
  obtain ⟨hlo, hhi⟩ := F32.key_bounds_of_isFinite h
  have hnan := F32.isNaN_of_isFinite h
  have hpos : F32.isNaN 0x7F800000#32 = false := by decide
  have hneg : F32.isNaN 0xFF800000#32 = false := by decide
  rw [F32.flt_of_key hnan hpos, F32.flt_of_key hpos hnan, F32.flt_of_key hneg hnan, F32.flt_of_key hnan hneg]
  exact ⟨decide_eq_true hhi, decide_eq_false hhi.not_gt, decide_eq_true hlo, decide_eq_false hlo.not_gt⟩

end Sys2Proof

namespace Sys2Proof.Machine

/-! ### The scan of argmax -/

/-- `b` is the first maximum among the patterns `f 0` to `f (n-1)`, a NaN never comparing (R169). -/
structure IsFirstMax (f : Nat → F32) (n b : Nat) : Prop where
  lt : b < n
  notGreater : ∀ i, i < n → F32.fgt (f i) (f b) = false
  greaterThanEarlier : ∀ i, i < b → F32.isNaN (f i) = false → F32.fgt (f b) (f i) = true
  ofNaN : F32.isNaN (f 0) = true → b = 0

theorem isFirstMax_one (f : Nat → F32) : IsFirstMax f 1 0 where
  lt := Nat.zero_lt_one
  notGreater i hi := by
    obtain rfl : i = 0 := by omega
    simp [← Bool.not_eq_true, F32.fgt_iff]
  greaterThanEarlier i hi := by omega
  ofNaN _ := rfl

/-- A pattern that is strictly greater than the first maximum before it is the new one. -/
theorem IsFirstMax.replace {f : Nat → F32} {n b : Nat} (h : IsFirstMax f n b)
    (hgt : F32.fgt (f n) (f b) = true) : IsFirstMax f (n + 1) n := by
  obtain ⟨hn, hb, hkey⟩ := F32.fgt_iff.mp hgt
  have hle : ∀ i, i < n → F32.isNaN (f i) = false → F32.key (f i) ≤ F32.key (f b) := fun i hi hnan =>
    not_lt.mp fun hlt => Bool.eq_false_iff.mp (h.notGreater i hi) (F32.fgt_iff.mpr ⟨hnan, hb, hlt⟩)
  refine ⟨Nat.lt_add_one n, fun i hi => ?_, fun i hi hnan => ?_, fun hnan => ?_⟩
  · rw [Bool.eq_false_iff, Ne, F32.fgt_iff]
    rintro ⟨hnan, -, hlt⟩
    rcases Nat.lt_succ_iff_lt_or_eq.mp hi with hi | rfl
    · exact (hle i hi hnan).not_gt (hkey.trans hlt)
    · exact lt_irrefl _ hlt
  · exact F32.fgt_iff.mpr ⟨hn, hnan, (hle i hi hnan).trans_lt hkey⟩
  · rw [h.ofNaN hnan, hnan] at hb
    cases hb

theorem IsFirstMax.keep {f : Nat → F32} {n b : Nat} (h : IsFirstMax f n b)
    (hgt : F32.fgt (f n) (f b) = false) : IsFirstMax f (n + 1) b where
  lt := Nat.lt_add_right 1 h.lt
  notGreater i hi := by
    rcases Nat.lt_succ_iff_lt_or_eq.mp hi with hi | rfl
    · exact h.notGreater i hi
    · exact hgt
  greaterThanEarlier := h.greaterThanEarlier
  ofNaN := h.ofNaN

/-- The scan carries the first maximum of what it has visited on over the rest of the list. -/
theorem isFirstMax_argmaxFrom {f : Nat → F32} {b n : Nat} (h : IsFirstMax f n b) {ps : List F32}
    (hps : ∀ j, j < ps.length → ps.getD j 0#32 = f (n + j)) :
    IsFirstMax f (n + ps.length) (argmaxFrom b (f b) n ps) := by
  induction ps generalizing b n with
  | nil => exact h
  | cons p ps ih =>
    have hp : p = f n := hps 0 (Nat.zero_lt_succ _)
    have hrest : ∀ j, j < ps.length → ps.getD j 0#32 = f (n + 1 + j) := fun j hj => by
      rw [Nat.add_right_comm]
      exact hps (j + 1) (Nat.succ_lt_succ hj)
    rw [argmaxFrom, hp, List.length_cons, ← Nat.add_assoc, Nat.add_right_comm]
    split
    next hgt => exact ih (h.replace hgt) hrest
    next hgt => exact ih (h.keep (Bool.eq_false_iff.mpr hgt)) hrest

/-- R169 on any patterns. -/
theorem isFirstMax_argmax {P : List F32} (h : P ≠ []) : IsFirstMax (P.getD · 0#32) P.length (argmax P) := by
  cases P with
  | nil => exact absurd rfl h
  | cons p ps =>
    rw [List.length_cons, Nat.add_comm]
    refine isFirstMax_argmaxFrom (isFirstMax_one _) fun j _ => ?_
    rw [Nat.add_comm, List.getD_cons_succ]

/-- Settles O47: the order of the keys is that of the values, and the scan of argmax keeps the first maximum of what it
has visited. -/
theorem argmaxIsTheFirstMaximum : Obligations.ArgmaxIsTheFirstMaximum := by
  refine ⟨fun a b ha hb => ⟨F32.flt_of_isFinite ha hb, F32.flt_of_isFinite hb ha⟩, fun a ha => ?_,
    fun a b h => ⟨F32.flt_of_isNaN h, F32.flt_of_isNaN h.symm⟩, fun P hP => ?_⟩
  · obtain ⟨hpos, hpos', hneg, hneg'⟩ := F32.flt_infinity_of_isFinite ha
    exact ⟨hpos, hpos', hneg, hneg', hpos, hpos', hneg, hneg'⟩
  · obtain ⟨hlt, hmax, hfirst, hnan⟩ := isFirstMax_argmax hP
    exact ⟨hlt, hmax, hfirst, hnan⟩

theorem State.probs_of_forall {s : State} {P : Nat → F32} (h : ∀ i, i < numClasses → s.readProb i = some (P i)) :
    s.probs = some ((List.range numClasses).map P) := by
  rw [State.probs, allSome_eq_some, List.map_map]
  exact List.map_congr_left fun i hi => h i (List.mem_range.mp hi)

theorem argmaxBody_amax_of_probs {s : State} {P : List F32} (h : s.probs = some P) :
    (argmaxBody s).amax = BitVec.ofNat 4 (argmax P) := by
  rw [argmaxBody, h, State.setAmax_amax, Option.getD_some]

/-- Settles O46: an index below 10 fits the four bits that AMAX holds. -/
theorem argmaxComputes : Obligations.ArgmaxComputes := by
  refine ⟨decode_encode .argmax, rfl, fun s P hP => ⟨_, exec_argmax s, ?_, ?_⟩⟩
  · have hlt : argmax ((List.range numClasses).map P) < 10 := argmax_lt_length (Nat.zero_lt_succ _)
    rw [State.csr, State.complete_amax, argmaxBody_amax_of_probs (State.probs_of_forall hP),
      BitVec.setWidth_ofNat_of_le_of_lt (by decide) (by omega)]
    rfl
  · obtain ⟨hdone, hmem, hprob, hhost⟩ := State.complete_frame (argmaxBody_status s) (argmaxBody_read16 s)
      (argmaxBody_readProb s) ⟨argmaxBody_events s, argmaxBody_rdata s⟩
    refine ⟨hdone, hmem, hprob, hhost, ?_, ?_, ?_, ?_, ?_⟩
    · rw [State.complete_cfg, argmaxBody_cfg]
    · rw [State.complete_qIn, argmaxBody_qIn]
    · rw [State.complete_qOut, argmaxBody_qOut]
    · rw [State.complete_dqIn, argmaxBody_dqIn]
    · rw [State.complete_dqOut, argmaxBody_dqOut]

end Sys2Proof.Machine
end

section
/-! `rne32` keeps the order of the numbers and answers the nearest pattern, a tie going to the even one; `fadd` and `fdiv`
round so (R11). -/

namespace Sys2Proof

/-! ### `n / d` rounded to an integer -/

/-- The rounded integer is at most half a unit away, and less where it is odd. -/
theorem roundHalfEven_bounds (n : Nat) {d : Nat} (hd : 0 < d) :
    2 * (roundHalfEven n d * d) ≤ 2 * n + d ∧ 2 * n ≤ 2 * (roundHalfEven n d * d) + d ∧
      (roundHalfEven n d % 2 = 1 →
        2 * (roundHalfEven n d * d) < 2 * n + d ∧ 2 * n < 2 * (roundHalfEven n d * d) + d) := by
  obtain ⟨hnear, hsettles⟩ := roundHalfEven_nearest n hd
  rw [QuantTie.Settles] at hsettles
  rw [← Nat.cast_mul] at hnear hsettles
  generalize roundHalfEven n d * d = kd at *
  omega

/-- No other integer is nearer, and none is equally near to an odd one. -/
theorem roundHalfEven_closest (n : Nat) {d : Nat} (hd : 0 < d) {j : Int} (hj : j ≠ roundHalfEven n d) :
    ((roundHalfEven n d * d : Int) - n).natAbs ≤ (j * d - n).natAbs ∧
      ((j * d - n).natAbs = ((roundHalfEven n d * d : Int) - n).natAbs → roundHalfEven n d % 2 = 0) := by
  obtain ⟨hhi, hlo, hodd⟩ := roundHalfEven_bounds n hd
  have hstep : j * d + d ≤ roundHalfEven n d * d ∨ (roundHalfEven n d * d : Int) + d ≤ j * d := by
    rw [← add_one_mul, ← add_one_mul]
    rcases lt_or_gt_of_ne hj with hlt | hgt
    · exact .inl (mul_le_mul_of_nonneg_right hlt (Nat.cast_nonneg d))
    · exact .inr (mul_le_mul_of_nonneg_right hgt (Nat.cast_nonneg d))
  rw [← Nat.cast_mul] at hstep ⊢
  generalize j * (d : Int) = jd at *
  generalize roundHalfEven n d * d = kd at *
  omega

theorem roundHalfEven_mono {n₁ n₂ d₁ d₂ : Nat} (h₁ : 0 < d₁) (h₂ : 0 < d₂) (h : n₁ * d₂ ≤ n₂ * d₁) :
    roundHalfEven n₁ d₁ ≤ roundHalfEven n₂ d₂ := by
  obtain ⟨hhi, -, hodd₁⟩ := roundHalfEven_bounds n₁ h₁
  obtain ⟨-, hlo, hodd₂⟩ := roundHalfEven_bounds n₂ h₂
  generalize roundHalfEven n₁ d₁ = k₁ at *
  generalize roundHalfEven n₂ d₂ = k₂ at *
  have hpos : 0 < d₁ * d₂ := Nat.mul_pos h₁ h₂
  have hleft : 2 * k₁ * (d₁ * d₂) ≤ 2 * (n₁ * d₂) + d₁ * d₂ := by linarith [Nat.mul_le_mul_right d₂ hhi]
  have hright : 2 * (n₂ * d₁) ≤ 2 * k₂ * (d₁ * d₂) + d₁ * d₂ := by linarith [Nat.mul_le_mul_right d₁ hlo]
  -- the two half units leave room for one unit, and only where neither is odd
  have hunit : 2 * k₁ ≤ 2 * (k₂ + 1) := Nat.le_of_mul_le_mul_right (by linarith) hpos
  by_contra hlt
  have hparity : k₁ % 2 = 1 ∨ k₂ % 2 = 1 := by omega
  have hstrict : 2 * k₁ < 2 * (k₂ + 1) := by
    refine Nat.lt_of_mul_lt_mul_right (a := d₁ * d₂) ?_
    rcases hparity with hk | hk
    · linarith [Nat.mul_lt_mul_of_pos_right (hodd₁ hk).1 h₂]
    · linarith [Nat.mul_lt_mul_of_pos_right (hodd₂ hk).2 h₁]
  omega

theorem roundHalfEven_one (n : Nat) : roundHalfEven n 1 = n := by
  simpa using roundHalfEven_mul Nat.one_pos n

theorem roundHalfEven_le {n d c : Nat} (hd : 0 < d) (h : n ≤ c * d) : roundHalfEven n d ≤ c := by
  rw [← roundHalfEven_one c]
  exact roundHalfEven_mono hd Nat.one_pos (by rwa [mul_one])

theorem le_roundHalfEven {n d c : Nat} (hd : 0 < d) (h : c * d ≤ n) : c ≤ roundHalfEven n d := by
  rw [← roundHalfEven_one c]
  exact roundHalfEven_mono Nat.one_pos hd (by rwa [mul_one])

/-! ### The places and the significand of a rounding -/

/-- The binary places of `n / d` above the subnormal spacing (R11). -/
def F32.rnePlaces (n d : Nat) : Nat := (n / d).log2 - 23

/-- The significand that `n / d` is rounded to, at its places (R11). -/
def F32.rneSignificand (n d : Nat) : Nat := roundHalfEven n (d * 2 ^ F32.rnePlaces n d)

theorem F32.rneMag_eq_min (n d : Nat) :
    F32.rneMag n d = min (F32.rnePlaces n d * 2 ^ 23 + F32.rneSignificand n d) 0x7F800000 := rfl

/-- At these places `n / d` is below `2^24`, and it is at least `2^23` unless it is subnormal. -/
theorem F32.rnePlaces_spec (n : Nat) {d : Nat} (hd : 0 < d) :
    n < 2 ^ 24 * (d * 2 ^ F32.rnePlaces n d) ∧
      (F32.rnePlaces n d = 0 ∨ 2 ^ 23 * (d * 2 ^ F32.rnePlaces n d) ≤ n) := by
  have hassoc (c : Nat) : 2 ^ c * (d * 2 ^ F32.rnePlaces n d) = 2 ^ (c + F32.rnePlaces n d) * d := by
    rw [pow_add]; ring
  rw [hassoc, hassoc, ← Nat.div_lt_iff_lt_mul hd, ← Nat.le_div_iff_mul_le hd]
  constructor
  · exact Nat.lt_log2_self.trans_le (Nat.pow_le_pow_right (by decide) (by rw [F32.rnePlaces]; omega))
  · refine or_iff_not_imp_left.mpr fun hplaces => ?_
    rw [F32.rnePlaces] at hplaces ⊢
    have hne : n / d ≠ 0 := fun h0 => hplaces (by rw [h0]; rfl)
    rw [show 23 + ((n / d).log2 - 23) = (n / d).log2 by omega]
    exact Nat.log2_self_le hne

theorem F32.rneSignificand_le (n : Nat) {d : Nat} (hd : 0 < d) : F32.rneSignificand n d ≤ 2 ^ 24 :=
  roundHalfEven_le (by positivity) (F32.rnePlaces_spec n hd).1.le

theorem F32.rnePlaces_eq_zero_or (n : Nat) {d : Nat} (hd : 0 < d) :
    F32.rnePlaces n d = 0 ∨ 2 ^ 23 ≤ F32.rneSignificand n d :=
  (F32.rnePlaces_spec n hd).2.imp_right (le_roundHalfEven (by positivity))

theorem F32.rnePlaces_mono {n₁ n₂ d₁ d₂ : Nat} (h₁ : 0 < d₁) (h₂ : 0 < d₂) (h : n₁ * d₂ ≤ n₂ * d₁) :
    F32.rnePlaces n₁ d₁ ≤ F32.rnePlaces n₂ d₂ := by
  have hdiv : n₁ / d₁ ≤ n₂ / d₂ := by
    rw [Nat.le_div_iff_mul_le h₂]
    refine Nat.le_of_mul_le_mul_right ?_ h₁
    calc n₁ / d₁ * d₂ * d₁ = n₁ / d₁ * d₁ * d₂ := Nat.mul_right_comm _ _ _
      _ ≤ n₁ * d₂ := Nat.mul_le_mul_right _ (Nat.div_mul_le_self n₁ d₁)
      _ ≤ n₂ * d₁ := h
  rw [F32.rnePlaces, F32.rnePlaces, Nat.log2_eq_log_two, Nat.log2_eq_log_two]
  exact Nat.sub_le_sub_right (Nat.log_mono_right hdiv) 23

/-- Rounding keeps the order: in one binade the significands do, and a higher binade starts where a lower one ends. -/
theorem F32.rneMag_mono {n₁ n₂ d₁ d₂ : Nat} (h₁ : 0 < d₁) (h₂ : 0 < d₂) (h : n₁ * d₂ ≤ n₂ * d₁) :
    F32.rneMag n₁ d₁ ≤ F32.rneMag n₂ d₂ := by
  rw [F32.rneMag_eq_min, F32.rneMag_eq_min]
  refine min_le_min_right _ ?_
  rcases (F32.rnePlaces_mono h₁ h₂ h).eq_or_lt with heq | hlt
  · rw [F32.rneSignificand, F32.rneSignificand, heq]
    refine Nat.add_le_add_left (roundHalfEven_mono (by positivity) (by positivity) ?_) _
    rw [← mul_assoc, ← mul_assoc]
    exact Nat.mul_le_mul_right _ h
  · have hhi := F32.rneSignificand_le n₁ h₁
    have hlo := F32.rnePlaces_eq_zero_or n₂ h₂
    omega

/-- The value of a rounding that stays finite. -/
theorem F32.magValue_rneMag {n d : Nat} (hd : 0 < d) (h : F32.rneMag n d < 0x7F800000) :
    F32.magValue (F32.rneMag n d) = F32.rneSignificand n d * 2 ^ F32.rnePlaces n d := by
  rw [F32.rneMag_eq_min] at h ⊢
  rw [min_eq_left (by omega), F32.magValue_places (F32.rneSignificand_le n hd) (F32.rnePlaces_eq_zero_or n hd)]

/-- A finite pattern is its own rounding. -/
theorem F32.rneMag_magValue {m : Nat} (h : m < 0x7F800000) : F32.rneMag (F32.magValue m) 1 = m := by
  obtain ⟨e, k, rfl, hhi, hlo⟩ := F32.exists_significand_places m
  rw [F32.magValue_places hhi.le hlo]
  rcases Nat.lt_or_ge k (2 ^ 23) with hsub | hnormal
  · obtain rfl : e = 0 := by omega
    have hplaces : F32.rnePlaces k 1 = 0 := by
      rcases Nat.eq_zero_or_pos k with rfl | hpos
      · rfl
      · rw [F32.rnePlaces, Nat.div_one, Nat.sub_eq_zero_iff_le]
        exact Nat.le_of_lt ((Nat.log2_lt hpos.ne').mpr hsub)
    rw [pow_zero, mul_one, F32.rneMag_eq_min, F32.rneSignificand, hplaces, pow_zero, mul_one, roundHalfEven_one]
    omega
  · exact F32.rneMag_exact hnormal hhi (by omega)

theorem F32.rneMag_le_of_le {n d m : Nat} (hd : 0 < d) (hm : m < 0x7F800000) (h : n ≤ F32.magValue m * d) :
    F32.rneMag n d ≤ m := by
  rw [← F32.rneMag_magValue hm]
  exact F32.rneMag_mono hd Nat.one_pos (by rwa [mul_one])

theorem F32.le_rneMag_of_le {n d m : Nat} (hd : 0 < d) (hm : m < 0x7F800000) (h : F32.magValue m * d ≤ n) :
    m ≤ F32.rneMag n d := by
  rw [← F32.rneMag_magValue hm]
  exact F32.rneMag_mono Nat.one_pos hd (by rwa [mul_one])

/-! ### The nearest pattern -/

/-- Below the rounding limit the rounding is a finite pattern. -/
theorem F32.rneMag_lt {n d : Nat} (hd : 0 < d) (h : n < (2 ^ 25 - 1) * 2 ^ 252 * d) :
    F32.rneMag n d < 0x7F800000 := by
  obtain ⟨-, hlo⟩ := F32.rnePlaces_spec n hd
  have hk := F32.rneSignificand_le n hd
  have hplaces : F32.rnePlaces n d ≤ 253 := by
    by_contra hgt
    have hpow : 2 ^ 254 ≤ 2 ^ F32.rnePlaces n d := Nat.pow_le_pow_right (by decide) (by omega)
    have hle : d * 2 ^ 254 ≤ d * 2 ^ F32.rnePlaces n d := Nat.mul_le_mul_left d hpow
    omega
  rw [F32.rneMag_eq_min]
  rcases hplaces.lt_or_eq with hlt | heq
  · omega
  · have hbound := (roundHalfEven_bounds n (d := d * 2 ^ 253) (by positivity)).1
    rw [F32.rneSignificand, heq] at hk ⊢
    rcases hk.lt_or_eq with hlt | htop
    · omega
    · rw [htop] at hbound
      omega

/-- What the values of patterns are, seen at `e` places: multiples of the spacing there, or below its binade. -/
theorem F32.scaled_onGrid (p : F32) (e : Nat) :
    (2 ^ e : Int) ∣ F32.scaled p ∨ (F32.scaled p).natAbs < 2 ^ 23 * 2 ^ e := by
  rw [← Int.natAbs_dvd_natAbs, Int.natAbs_pow, F32.natAbs_scaled]
  obtain ⟨e', k, hm, hhi, hlo⟩ := F32.exists_significand_places (F32.mag p)
  rw [hm, F32.magValue_places hhi.le hlo]
  rcases Nat.lt_or_ge e' e with hlt | hge
  · right
    calc k * 2 ^ e' < 2 ^ 24 * 2 ^ e' := Nat.mul_lt_mul_of_pos_right hhi (by positivity)
      _ = 2 ^ 23 * 2 ^ (e' + 1) := by ring
      _ ≤ 2 ^ 23 * 2 ^ e := Nat.mul_le_mul_left _ (Nat.pow_le_pow_right (by decide) hlt)
  · exact .inl (Dvd.dvd.mul_left (pow_dvd_pow 2 hge) k)

/-- Among the numbers `x` that are multiples of the spacing or below the binade none is nearer to `n / d` than its
rounding, and none is equally near to an odd significand. -/
theorem F32.rneSignificand_closest (n : Nat) {d : Nat} (hd : 0 < d) {x : Int}
    (hx : (2 ^ F32.rnePlaces n d : Int) ∣ x ∨ x.natAbs < 2 ^ 23 * 2 ^ F32.rnePlaces n d)
    (hne : x ≠ (F32.rneSignificand n d * 2 ^ F32.rnePlaces n d : Nat)) :
    (((F32.rneSignificand n d * 2 ^ F32.rnePlaces n d : Nat) : Int) * d - n).natAbs ≤ (x * d - n).natAbs ∧
      ((x * d - n).natAbs = (((F32.rneSignificand n d * 2 ^ F32.rnePlaces n d : Nat) : Int) * d - n).natAbs →
        F32.rneSignificand n d % 2 = 0) := by
  have hpos : 0 < d * 2 ^ F32.rnePlaces n d := by positivity
  obtain ⟨-, hlo⟩ := F32.rnePlaces_spec n hd
  rw [F32.rneSignificand] at hne ⊢
  generalize F32.rnePlaces n d = e at *
  have hunit (j : Int) : j * 2 ^ e * d = j * (d * 2 ^ e : Nat) := by push_cast; ring
  have hclosest {j : Int} := roundHalfEven_closest n hpos (j := j)
  generalize roundHalfEven n (d * 2 ^ e) = k at *
  rw [Nat.cast_mul, Nat.cast_pow, Nat.cast_ofNat, hunit]
  by_cases hdvd : (2 ^ e : Int) ∣ x
  · obtain ⟨j, rfl⟩ := hdvd
    rw [mul_comm _ j, hunit]
    exact hclosest fun hj => hne (by rw [hj]; push_cast; ring)
  · -- `x` is below the binade, whose first number is strictly nearer
    have hlow := hx.resolve_left hdvd
    have hbinade := hlo.resolve_left fun h0 => hdvd (by rw [h0, pow_zero]; exact one_dvd x)
    have hxd : x * d < 2 ^ 23 * (d * 2 ^ e : Nat) := by
      have hlt : x < 2 ^ 23 * 2 ^ e := by zify at hlow; exact (le_abs_self x).trans_lt hlow
      calc x * d < 2 ^ 23 * 2 ^ e * d := mul_lt_mul_of_pos_right hlt (by exact_mod_cast hd)
        _ = 2 ^ 23 * (d * 2 ^ e : Nat) := by push_cast; ring
    have hfirst : ((k : Int) * (d * 2 ^ e : Nat) - n).natAbs ≤ (2 ^ 23 * (d * 2 ^ e : Nat) - n : Int).natAbs := by
      by_cases hk : (2 ^ 23 : Int) = k
      · rw [hk]
      · exact (hclosest hk).1
    generalize (k : Int) * (d * 2 ^ e : Nat) = kd at *
    generalize x * (d : Int) = xd at *
    generalize d * 2 ^ e = D at *
    omega

theorem F32.toNat_rne32_mod_two (neg : Bool) (n d : Nat) :
    (F32.rne32 neg n d).toNat % 2 = F32.rneMag n d % 2 := by
  rw [← F32.mag_rne32 neg, F32.mag]
  omega

theorem F32.isFinite_rne32 (neg : Bool) {n d : Nat} (hd : 0 < d) (h : n < (2 ^ 25 - 1) * 2 ^ 252 * d) :
    F32.isFinite (F32.rne32 neg n d) = true := by
  rw [F32.isFinite_iff, F32.mag_rne32]
  exact F32.rneMag_lt hd h

/-- The factor of a sign bit. -/
def F32.signFactor (neg : Bool) : Int := if neg then -1 else 1

theorem F32.scaled_eq_signFactor_mul (p : F32) :
    F32.scaled p = F32.signFactor (F32.sign p) * F32.scaledMag p := by
  rw [F32.scaled, F32.signFactor]
  split <;> simp

theorem F32.natAbs_signFactor (neg : Bool) : (F32.signFactor neg).natAbs = 1 := by cases neg <;> rfl

theorem F32.signFactor_mul_self (neg : Bool) : F32.signFactor neg * F32.signFactor neg = 1 := by
  cases neg <;> rfl

/-- A distance is the same on either side of zero. -/
theorem F32.natAbs_sub_signFactor (neg : Bool) (y n : Int) :
    (y - F32.signFactor neg * n).natAbs = (F32.signFactor neg * y - n).natAbs := by
  have hsplit : F32.signFactor neg * (y - F32.signFactor neg * n) = F32.signFactor neg * y - n := by
    rw [mul_sub, ← mul_assoc, F32.signFactor_mul_self, one_mul]
  rw [← hsplit, Int.natAbs_mul, F32.natAbs_signFactor, one_mul]

/-- R11: below the rounding limit `rne32` answers the nearest pattern, the even one of two. -/
theorem F32.rne32_isNearest (neg : Bool) {n d : Nat} (hd : 0 < d) (h : n < (2 ^ 25 - 1) * 2 ^ 252 * d) :
    Machine.IsNearestF32 (F32.rne32 neg n d) (F32.signFactor neg * n) d := by
  have hfinite := F32.rneMag_lt hd h
  have hvalue : F32.signFactor neg * F32.scaled (F32.rne32 neg n d) =
      (F32.rneSignificand n d * 2 ^ F32.rnePlaces n d : Nat) := by
    rw [F32.scaled_eq_signFactor_mul, F32.sign_rne32, ← mul_assoc, F32.signFactor_mul_self, one_mul,
      F32.scaledMag_eq_magValue, F32.mag_rne32, F32.magValue_rneMag hd hfinite]
  have heven : F32.rneSignificand n d % 2 = 0 → (F32.rne32 neg n d).toNat % 2 = 0 := fun hk => by
    rw [F32.rneMag_eq_min] at hfinite
    rw [F32.toNat_rne32_mod_two, F32.rneMag_eq_min]
    omega
  have hclosest (q : F32) (hne : F32.scaled q ≠ F32.scaled (F32.rne32 neg n d)) :=
    F32.rneSignificand_closest n hd (x := F32.signFactor neg * F32.scaled q)
      ((F32.scaled_onGrid q _).imp (Dvd.dvd.mul_left · _)
        (by rw [Int.natAbs_mul, F32.natAbs_signFactor, one_mul]; exact id))
      (fun heq => hne (mul_left_cancel₀ (by cases neg <;> decide) (heq.trans hvalue.symm)))
  simp only [← hvalue, mul_assoc, ← F32.natAbs_sub_signFactor] at hclosest
  refine ⟨F32.isFinite_rne32 neg hd h, fun q _ => ?_, fun q _ hne htie => heven ((hclosest q hne).2 htie)⟩
  by_cases hne : F32.scaled q = F32.scaled (F32.rne32 neg n d)
  · rw [hne]
  · exact (hclosest q hne).1

/-! ### `fadd` and `fdiv` on finite operands -/

theorem F32.fadd_of_isFinite {a b : F32} (ha : F32.isFinite a = true) (hb : F32.isFinite b = true)
    (h : F32.scaled a + F32.scaled b ≠ 0) : F32.fadd a b = F32.ofScaled (F32.scaled a + F32.scaled b) := by
  simp [F32.fadd, F32.isNaN_of_isFinite ha, F32.isNaN_of_isFinite hb, F32.isInf_of_isFinite ha,
    F32.isInf_of_isFinite hb, h]

theorem F32.fadd_of_add_eq_zero {a b : F32} (ha : F32.isFinite a = true) (hb : F32.isFinite b = true)
    (h : F32.scaled a + F32.scaled b = 0) :
    F32.fadd a b = if F32.sign a && F32.sign b then 0x80000000#32 else 0#32 := by
  simp [F32.fadd, F32.isNaN_of_isFinite ha, F32.isNaN_of_isFinite hb, F32.isInf_of_isFinite ha,
    F32.isInf_of_isFinite hb, h]

theorem F32.fdiv_of_isFinite {a b : F32} (ha : F32.isFinite a = true) (hb : F32.isFinite b = true)
    (h : F32.scaledMag b ≠ 0) :
    F32.fdiv a b = F32.rne32 (F32.sign a != F32.sign b) (F32.scaledMag a * 2 ^ 149) (F32.scaledMag b) := by
  simp [F32.fdiv, F32.isNaN_of_isFinite ha, F32.isNaN_of_isFinite hb, F32.isInf_of_isFinite ha,
    F32.isInf_of_isFinite hb, h]

/-- A finite pattern whose value is the number itself is the nearest one, and no other value is as near. -/
theorem F32.isNearest_of_scaled_eq {r : F32} {num : Int} (hr : F32.isFinite r = true) (h : F32.scaled r = num) :
    Machine.IsNearestF32 r num 1 := by
  subst h
  refine ⟨hr, fun q _ => by simp, fun q _ hne htie => absurd ?_ hne⟩
  simpa [sub_eq_zero] using htie

theorem F32.ofScaled_isNearest {z : Int} (h : z.natAbs < (2 ^ 25 - 1) * 2 ^ 252) :
    Machine.IsNearestF32 (F32.ofScaled z) z 1 := by
  have hz : F32.signFactor (decide (z < 0)) * z.natAbs = z := by
    simp only [F32.signFactor, decide_eq_true_eq]
    split <;> omega
  have hnearest := F32.rne32_isNearest (decide (z < 0)) (n := z.natAbs) Nat.one_pos (by rwa [mul_one])
  rwa [hz] at hnearest

theorem F32.fadd_isNearest {a b : F32} (ha : F32.isFinite a = true) (hb : F32.isFinite b = true)
    (h : (F32.scaled a + F32.scaled b).natAbs < (2 ^ 25 - 1) * 2 ^ 252) :
    Machine.IsNearestF32 (F32.fadd a b) (F32.scaled a + F32.scaled b) 1 := by
  by_cases hzero : F32.scaled a + F32.scaled b = 0
  · rw [F32.fadd_of_add_eq_zero ha hb hzero, hzero]
    split <;> exact F32.isNearest_of_scaled_eq (by decide) (by decide)
  · rw [F32.fadd_of_isFinite ha hb hzero]
    exact F32.ofScaled_isNearest h

theorem F32.fdiv_isNearest {a b : F32} (ha : F32.isFinite a = true) (hb : F32.isFinite b = true)
    (hzero : F32.scaled b ≠ 0)
    (h : (F32.scaled a).natAbs * 2 ^ 149 < (2 ^ 25 - 1) * 2 ^ 252 * (F32.scaled b).natAbs) :
    Machine.IsNearestF32 (F32.fdiv a b) (F32.scaled a * (F32.scaled b).sign * 2 ^ 149) (F32.scaled b).natAbs := by
  rw [F32.natAbs_scaled, F32.natAbs_scaled, ← F32.scaledMag_eq_magValue, ← F32.scaledMag_eq_magValue] at h
  have hb0 : F32.scaledMag b ≠ 0 := fun h0 => hzero (by rw [F32.scaled_eq_signFactor_mul, h0]; simp)
  have hsign : (F32.scaled b).sign = F32.signFactor (F32.sign b) := by
    rw [F32.scaled_eq_signFactor_mul, Int.sign_mul, Int.sign_natCast_of_ne_zero hb0]
    cases F32.sign b <;> rfl
  have hfactor : F32.signFactor (F32.sign a != F32.sign b) =
      F32.signFactor (F32.sign a) * F32.signFactor (F32.sign b) := by
    cases F32.sign a <;> cases F32.sign b <;> rfl
  have hnum : F32.scaled a * (F32.scaled b).sign * 2 ^ 149 =
      F32.signFactor (F32.sign a != F32.sign b) * (F32.scaledMag a * 2 ^ 149 : Nat) := by
    rw [hsign, hfactor, F32.scaled_eq_signFactor_mul a]
    push_cast
    ring
  rw [F32.fdiv_of_isFinite ha hb hb0, hnum, F32.natAbs_scaled, ← F32.scaledMag_eq_magValue]
  exact F32.rne32_isNearest _ (Nat.pos_of_ne_zero hb0) h

end Sys2Proof
end

section
/-! The maximum of the logits, and what softmax leaves in PROB: it looks at differences of logits alone (R161 to R165,
R168). -/

namespace Sys2Proof.Machine

/-! ### The maximum and the shifted logits -/

theorem max?_map_toInt {L : List S16} (h : L ≠ []) : (L.map BitVec.toInt).max? = some (maxLogit L) := by
  cases L with
  | nil => exact absurd rfl h
  | cons l ls => rw [List.map_cons, List.max?_cons', List.foldl_map, maxLogit]

/-- R161: the maximum is one of the logits and none is greater. -/
theorem maxLogit_eq_iff {L : List S16} (h : L ≠ []) {M : Int} :
    maxLogit L = M ↔ (∃ l ∈ L, l.toInt = M) ∧ ∀ l ∈ L, l.toInt ≤ M := by
  rw [← Option.some_inj, ← max?_map_toInt h, List.max?_eq_some_iff, List.mem_map, List.forall_mem_map]

theorem exists_toInt_eq_maxLogit {L : List S16} (h : L ≠ []) : ∃ l ∈ L, l.toInt = maxLogit L :=
  ((maxLogit_eq_iff h).mp rfl).1

theorem toInt_le_maxLogit {L : List S16} {l : S16} (h : l ∈ L) : l.toInt ≤ maxLogit L :=
  ((maxLogit_eq_iff (List.ne_nil_of_mem h)).mp rfl).2 l h

/-- The exponential of the shifted logit `l` (R162, R163). -/
def expOfLogit (F : Nat) (exp32 : F32 → F32) (M : Int) (l : S16) : F32 := exp32 (F32.ofFixed F (l.toInt - M))

theorem map_exp_shifted (F : Nat) (exp32 : F32 → F32) (L : List S16) :
    (shifted F L).map exp32 = L.map (expOfLogit F exp32 (maxLogit L)) := by
  rw [shifted, List.map_map]
  rfl

/-- A constant added to all logits adds itself to their maximum. -/
theorem maxLogit_translate {L L' : List S16} {c : Int} (hne : L ≠ [])
    (h : L'.map BitVec.toInt = L.map (fun l => l.toInt + c)) : maxLogit L' = maxLogit L + c := by
  have hne' : L' ≠ [] := by
    rintro rfl
    exact hne (List.map_eq_nil_iff.mp h.symm)
  refine (maxLogit_eq_iff hne').mpr ⟨?_, fun l' hl' => ?_⟩
  · obtain ⟨l, hl, hmax⟩ := exists_toInt_eq_maxLogit hne
    exact List.mem_map.mp (h ▸ List.mem_map.mpr ⟨l, hl, by rw [hmax]⟩)
  · obtain ⟨l, hl, hsum⟩ := List.mem_map.mp (h ▸ List.mem_map_of_mem (f := BitVec.toInt) hl')
    exact hsum ▸ Int.add_le_add_right (toInt_le_maxLogit hl) c

theorem shifted_eq_map_toInt (F : Nat) (L : List S16) :
    shifted F L = (L.map BitVec.toInt).map fun z => F32.ofFixed F (z - maxLogit L) := by
  rw [shifted, List.map_map]
  rfl

/-- Settles O50: the constant goes out of every difference from the maximum. -/
theorem softmaxTranslationInvariant : Obligations.SoftmaxTranslationInvariant := by
  intro F exp32 eps L L' c h
  suffices hshifted : shifted F L' = shifted F L by rw [softmax, softmax, hshifted]
  rcases eq_or_ne L [] with rfl | hne
  · obtain rfl : L' = [] := by simpa using h
    rfl
  rw [shifted_eq_map_toInt, h, maxLogit_translate hne h, List.map_map]
  exact List.map_congr_left fun l _ => congrArg (F32.ofFixed F) (Int.add_sub_add_right _ _ _)

/-! ### What SOFTMAX leaves in PROB -/

theorem State.logits_of_forall {s : State} {L : Nat → S16}
    (h : ∀ i, i < numClasses → s.read16 .logit i = some (L i)) :
    s.logits = some ((List.range numClasses).map L) := by
  rw [State.logits, allSome_eq_some, List.map_map]
  exact List.map_congr_left fun i hi => h i (List.mem_range.mp hi)

theorem softmaxBody_readProb_of_logits {s : State} {L : List S16} (h : s.logits = some L) {i : Nat}
    (hi : i < numClasses) : (softmaxBody s).readProb i =
      some ((softmax s.cfg.F.val Config.expUnit.exp32 s.cfg.softmaxEps L).getD i 0#32) := by
  have hresult : s.softmaxResult = some (softmax s.cfg.F.val Config.expUnit.exp32 s.cfg.softmaxEps L) := by
    rw [State.softmaxResult, h]
  rw [softmaxBody_readProb, if_pos hi, hresult, Option.getD_some]

theorem oneTenth_eq : oneTenth = 0x3DCCCCCD#32 := by decide

/-- R163 to R165, one probability: the fallback, or the quotient by the sum. -/
theorem getD_softmax {F : Nat} {exp32 : F32 → F32} {eps : F32} {L : List S16} {i : Nat} (hi : i < L.length) :
    (softmax F exp32 eps L).getD i 0#32 =
      if F32.flt (floatSum ((shifted F L).map exp32)) eps then 0x3DCCCCCD#32
      else F32.fdiv (expOfLogit F exp32 (maxLogit L) (L.getD i 0#16)) (floatSum ((shifted F L).map exp32)) := by
  rw [softmax, normalize, map_exp_shifted]
  split
  · rw [List.getD_eq_getElem _ _ (by simpa using hi), List.getElem_map, oneTenth_eq]
  · rw [List.getD_eq_getElem _ _ (by simpa using hi), List.getElem_map, List.getElem_map,
      List.getD_eq_getElem _ _ hi]

/-- Settles O45: `fadd` and `fdiv` answer the nearest pattern, and of the ten probabilities each is the fallback or its
exponential over the sum. -/
theorem softmaxComputes : Obligations.SoftmaxComputes := by
  refine ⟨fun a b => F32.fadd_isNearest, fun a b => F32.fdiv_isNearest, fun F z hF hlo hhi => ?_,
    decode_encode .softmax, rfl, fun s L M e total hL hle hmem he htotal => ⟨_, exec_softmax s, fun i hi => ?_, ?_⟩⟩
  · have hz : z.natAbs < 2 ^ 16 := by omega
    refine ⟨F32.isFinite_ofFixed hF hz, F32.scaled_ofFixed hF hz, ?_⟩
    rintro rfl
    exact F32.ofFixed_zero F
  · have hlogits : s.logits = some ((List.range 10).map L) := State.logits_of_forall hL
    have hmax : maxLogit ((List.range 10).map L) = M := by
      refine (maxLogit_eq_iff (by simp)).mpr ?_
      simpa using ⟨hmem, hle⟩
    have hsum : floatSum ((shifted s.cfg.F.val ((List.range 10).map L)).map Config.expUnit.exp32) = total := by
      rw [map_exp_shifted, hmax, htotal, List.map_map]
      simp only [he]
      rfl
    rw [State.complete_readProb, softmaxBody_readProb_of_logits hlogits hi,
      getD_softmax (by simpa using hi), hsum, hmax, he i, List.getD_eq_getElem _ _ (by simpa using hi),
      List.getElem_map, List.getElem_range]
    rfl
  · refine ⟨?_, fun sp i => ?_, ?_, ?_⟩
    · rw [State.completedFrom, State.complete_status, softmaxBody_status, Status.complete]
    · rw [State.complete_read16, softmaxBody_read16]
    · simp [State.sameRegs]
    · simp [State.sameHost]

/-- Ten equal logits: every exponential is 1.0, and both the quotient by 10.0 and the fallback are one tenth (R166). -/
theorem softmax_replicate {exp32 : F32 → F32} (h0 : ExpAtZero exp32) (F : Nat) (eps : F32) (l : S16) :
    softmax F exp32 eps (List.replicate 10 l) = List.replicate 10 0x3DCCCCCD#32 := by
  have hmax : maxLogit (List.replicate 10 l) = l.toInt :=
    (maxLogit_eq_iff (by simp)).mpr (by simp)
  have hexp : (shifted F (List.replicate 10 l)).map exp32 = List.replicate 10 0x3F800000#32 := by
    rw [map_exp_shifted, hmax, List.map_replicate, expOfLogit, Int.sub_self, F32.ofFixed_zero, h0]
  rw [softmax, hexp, normalize]
  split <;> decide

/-- Settles O51. -/
theorem equalLogitsGiveOneTenth : Obligations.EqualLogitsGiveOneTenth := by
  intro s l hl
  have hlogits : s.logits = some (List.replicate 10 l) := State.logits_of_forall (L := fun _ => l) hl
  refine ⟨_, exec_softmax s, fun i hi => ?_⟩
  rw [State.complete_readProb, softmaxBody_readProb_of_logits hlogits hi, softmax_replicate Config.expUnit.e0,
    List.getD_replicate _ hi]

end Sys2Proof.Machine
end

section
/-! Softmax under the premises E0 to E2 on the exponential (R166): the sum lies from 1 to 10, and the probabilities are
quotients from 0 to 1 in the order of the logits (R167, R171). -/

namespace Sys2Proof

/-! ### Patterns from +0.0 up -/

/-- The pattern is a finite number from +0.0 to `k`. -/
structure F32.FromZeroTo (k : Nat) (p : F32) : Prop where
  toNat_lt : p.toNat < 0x7F800000
  value_le : F32.magValue p.toNat ≤ k * 2 ^ 149

theorem F32.magValue_one : F32.magValue (0x3F800000#32).toNat = 1 * 2 ^ 149 := by decide

theorem F32.magValue_ten : F32.magValue (0x41200000#32).toNat = 10 * 2 ^ 149 := by decide

/-- Up to a finite pattern of value `k` the patterns are the numbers from +0.0 to `k`. -/
theorem F32.fromZeroTo_iff {k : Nat} {c p : F32} (hc : c.toNat < 0x7F800000)
    (hvalue : F32.magValue c.toNat = k * 2 ^ 149) : F32.FromZeroTo k p ↔ p ≤ c := by
  rw [BitVec.le_def, ← F32.magValue_strictMono.le_iff_le, hvalue]
  refine ⟨fun h => h.value_le, fun h => ⟨?_, h⟩⟩
  rw [← hvalue, F32.magValue_strictMono.le_iff_le] at h
  omega

theorem F32.fromZeroTo_one_iff {p : F32} : F32.FromZeroTo 1 p ↔ p ≤ 0x3F800000#32 :=
  F32.fromZeroTo_iff (by decide) F32.magValue_one

theorem F32.fromZeroTo_ten_iff {p : F32} : F32.FromZeroTo 10 p ↔ p ≤ 0x41200000#32 :=
  F32.fromZeroTo_iff (by decide) F32.magValue_ten

theorem F32.exists_pattern_of_lt {k : Nat} (hk : k < 2 ^ 16) :
    ∃ m < 0x7F800000, F32.magValue m = k * 2 ^ 149 := by
  have hz : (k : Int).natAbs < 2 ^ 16 := by omega
  refine ⟨_, F32.isFinite_iff.mp (F32.isFinite_ofFixed (Nat.zero_le 15) hz), ?_⟩
  rw [← F32.natAbs_scaled, F32.scaled_ofFixed (Nat.zero_le 15) hz, Int.natAbs_mul, Int.natAbs_natCast]
  rfl

section Nonnegative

variable {a b t : F32}

theorem F32.mag_of_toNat_lt (ha : a.toNat < 0x7F800000) : F32.mag a = a.toNat :=
  Nat.mod_eq_of_lt (by omega)

theorem F32.sign_of_toNat_lt (ha : a.toNat < 0x7F800000) : F32.sign a = false := by
  rw [F32.sign, BitVec.msb_eq_decide]
  exact decide_eq_false (by omega)

theorem F32.isFinite_of_toNat_lt (ha : a.toNat < 0x7F800000) : F32.isFinite a = true := by
  rwa [F32.isFinite_iff, F32.mag_of_toNat_lt ha]

theorem F32.scaledMag_of_toNat_lt (ha : a.toNat < 0x7F800000) : F32.scaledMag a = F32.magValue a.toNat := by
  rw [F32.scaledMag_eq_magValue, F32.mag_of_toNat_lt ha]

theorem F32.scaled_of_toNat_lt (ha : a.toNat < 0x7F800000) : F32.scaled a = F32.magValue a.toNat := by
  rw [F32.scaled, F32.sign_of_toNat_lt ha, F32.scaledMag_of_toNat_lt ha]
  rfl

theorem F32.toNat_rne32_false (n d : Nat) : (F32.rne32 false n d).toNat = F32.rneMag n d := by
  have hle := F32.rneMag_le n d
  rw [F32.rne32, BitVec.toNat_ofNat]
  exact (Nat.mod_eq_of_lt (by simp; omega)).trans (Nat.zero_add _)

theorem F32.toNat_fadd (ha : a.toNat < 0x7F800000) (hb : b.toNat < 0x7F800000) :
    (F32.fadd a b).toNat = F32.rneMag (F32.magValue a.toNat + F32.magValue b.toNat) 1 := by
  have hsum : F32.scaled a + F32.scaled b = (F32.magValue a.toNat + F32.magValue b.toNat : Nat) := by
    rw [F32.scaled_of_toNat_lt ha, F32.scaled_of_toNat_lt hb, Nat.cast_add]
  have hfa := F32.isFinite_of_toNat_lt ha
  have hfb := F32.isFinite_of_toNat_lt hb
  generalize F32.magValue a.toNat + F32.magValue b.toNat = n at hsum ⊢
  rcases Nat.eq_zero_or_pos n with rfl | hpos
  · rw [F32.fadd_of_add_eq_zero hfa hfb hsum, F32.sign_of_toNat_lt ha]
    rfl
  · rw [F32.fadd_of_isFinite hfa hfb (by omega), hsum, F32.ofScaled, decide_eq_false (by omega),
      F32.toNat_rne32_false, Int.natAbs_natCast]

theorem F32.magValue_pos {m : Nat} (h : 0 < m) : 0 < F32.magValue m :=
  F32.magValue_strictMono (a := 0) h

theorem F32.toNat_fdiv (ha : a.toNat < 0x7F800000) (ht : t.toNat < 0x7F800000) (hpos : 0 < t.toNat) :
    (F32.fdiv a t).toNat = F32.rneMag (F32.magValue a.toNat * 2 ^ 149) (F32.magValue t.toNat) := by
  have hne : F32.scaledMag t ≠ 0 := by
    rw [F32.scaledMag_of_toNat_lt ht]
    exact (F32.magValue_pos hpos).ne'
  rw [F32.fdiv_of_isFinite (F32.isFinite_of_toNat_lt ha) (F32.isFinite_of_toNat_lt ht) hne,
    F32.sign_of_toNat_lt ha, F32.sign_of_toNat_lt ht, F32.scaledMag_of_toNat_lt ha, F32.scaledMag_of_toNat_lt ht]
  exact F32.toNat_rne32_false _ _

/-- A comparison of patterns from +0.0 up is one of the patterns. -/
theorem F32.flt_eq_false_of_le (ha : a.toNat < 0x7F800000) (hb : b.toNat < 0x7F800000) (h : b ≤ a) :
    F32.flt a b = false := by
  rw [F32.flt_of_isFinite (F32.isFinite_of_toNat_lt ha) (F32.isFinite_of_toNat_lt hb),
    F32.scaled_of_toNat_lt ha, F32.scaled_of_toNat_lt hb, decide_eq_false_iff_not, Nat.cast_lt, not_lt,
    F32.magValue_strictMono.le_iff_le]
  exact h

/-! ### Sums and quotients of such patterns -/

/-- A rounded sum is no less than either term, and no more than an integer that the exact sum does not exceed. -/
theorem F32.FromZeroTo.fadd {k : Nat} (hk : k + 1 < 2 ^ 16) (ha : F32.FromZeroTo k a) (hb : F32.FromZeroTo 1 b) :
    F32.FromZeroTo (k + 1) (F32.fadd a b) ∧ a ≤ F32.fadd a b ∧ b ≤ F32.fadd a b := by
  obtain ⟨m, hm, hvalue⟩ := F32.exists_pattern_of_lt hk
  have hsum := F32.toNat_fadd ha.toNat_lt hb.toNat_lt
  have hle : (F32.fadd a b).toNat ≤ m := by
    rw [hsum]
    refine F32.rneMag_le_of_le Nat.one_pos hm ?_
    rw [hvalue, mul_one, add_mul]
    exact Nat.add_le_add ha.value_le hb.value_le
  refine ⟨⟨hle.trans_lt hm, hvalue ▸ F32.magValue_strictMono.monotone hle⟩, ?_, ?_⟩ <;> rw [BitVec.le_def, hsum]
  · exact F32.le_rneMag_of_le Nat.one_pos ha.toNat_lt (by rw [mul_one]; exact Nat.le_add_right _ _)
  · exact F32.le_rneMag_of_le Nat.one_pos hb.toNat_lt (by rw [mul_one]; exact Nat.le_add_left _ _)

theorem F32.fdiv_le_one (ht : t.toNat < 0x7F800000) (hpos : 0 < t.toNat) (h : a ≤ t) :
    F32.fdiv a t ≤ 0x3F800000#32 := by
  have hvalue : F32.magValue a.toNat ≤ F32.magValue t.toNat := F32.magValue_strictMono.monotone h
  rw [BitVec.le_def, F32.toNat_fdiv ((BitVec.le_def.mp h).trans_lt ht) ht hpos]
  refine F32.rneMag_le_of_le (F32.magValue_pos hpos) (by decide) ?_
  rw [F32.magValue_one, one_mul, mul_comm]
  exact Nat.mul_le_mul_left _ hvalue

theorem F32.fdiv_mono (ht : t.toNat < 0x7F800000) (hpos : 0 < t.toNat) (hb : b.toNat < 0x7F800000) (h : a ≤ b) :
    F32.fdiv a t ≤ F32.fdiv b t := by
  have hvalue : F32.magValue a.toNat ≤ F32.magValue b.toNat := F32.magValue_strictMono.monotone h
  rw [BitVec.le_def, F32.toNat_fdiv ((BitVec.le_def.mp h).trans_lt hb) ht hpos, F32.toNat_fdiv hb ht hpos]
  refine F32.rneMag_mono (F32.magValue_pos hpos) (F32.magValue_pos hpos) ?_
  exact Nat.mul_le_mul_right _ (Nat.mul_le_mul_right _ hvalue)

/-- `1 / t` is at least `1 / 10`, and so are their roundings. -/
theorem F32.oneTenth_le_fdiv (hpos : 0 < t.toNat) (ht : F32.FromZeroTo 10 t) :
    0x3DCCCCCD#32 ≤ F32.fdiv 0x3F800000#32 t := by
  rw [← Machine.oneTenth_eq, Machine.oneTenth, BitVec.le_def, F32.toNat_rne32_false,
    F32.toNat_fdiv (by decide) ht.toNat_lt hpos, F32.magValue_one, one_mul]
  refine F32.rneMag_mono (by decide) (F32.magValue_pos hpos) ?_
  rw [mul_assoc, mul_comm (2 ^ 149) 10]
  exact Nat.mul_le_mul_left _ ht.value_le

end Nonnegative

end Sys2Proof

namespace Sys2Proof.Machine

/-! ### The sum of the exponentials -/

/-- Numbers from 0 to 1 added one after another: no partial sum exceeds their count, and none falls. -/
theorem foldl_fadd_bounds {es : List F32} {s : F32} {k : Nat} (hk : k + es.length < 2 ^ 16)
    (hs : F32.FromZeroTo k s) (hes : ∀ e ∈ es, F32.FromZeroTo 1 e) :
    F32.FromZeroTo (k + es.length) (es.foldl F32.fadd s) ∧ ∀ e ∈ s :: es, e ≤ es.foldl F32.fadd s := by
  induction es generalizing s k with
  | nil => exact ⟨hs, fun e he => by rw [List.mem_singleton.mp he]; exact BitVec.le_refl _⟩
  | cons e es ih =>
    rw [List.length_cons, Nat.add_comm es.length, ← Nat.add_assoc] at hk ⊢
    rw [List.forall_mem_cons] at hes
    obtain ⟨hadd, hse, hee⟩ := hs.fadd (by omega) hes.1
    obtain ⟨hrange, hle⟩ := ih hk hadd hes.2
    rw [List.forall_mem_cons] at hle
    refine ⟨hrange, List.forall_mem_cons.mpr ⟨BitVec.le_trans hse hle.1, ?_⟩⟩
    exact List.forall_mem_cons.mpr ⟨BitVec.le_trans hee hle.1, hle.2⟩

theorem floatSum_bounds {es : List F32} (hlen : es.length < 2 ^ 16) (hes : ∀ e ∈ es, F32.FromZeroTo 1 e)
    (hne : es ≠ []) : F32.FromZeroTo es.length (floatSum es) ∧ ∀ e ∈ es, e ≤ floatSum es := by
  cases es with
  | nil => exact absurd rfl hne
  | cons e es =>
    rw [List.length_cons, Nat.add_comm] at hlen ⊢
    rw [List.forall_mem_cons] at hes
    exact foldl_fadd_bounds hlen hes.1 hes.2

section Exponential

variable {exp32 : F32 → F32} {F : Nat} {L : List S16} {eps : F32} {l l' : S16}

/-- Every shifted logit is `-j / 2^F` with `j` at most 65535 (R162). -/
theorem expOfLogit_eq (hl : l ∈ L) : ∃ j : Nat, j ≤ 65535 ∧ l.toInt + j = maxLogit L ∧
    expOfLogit F exp32 (maxLogit L) l = exp32 (F32.ofFixed F (-(j : Int))) := by
  obtain ⟨m, -, hm⟩ := exists_toInt_eq_maxLogit (List.ne_nil_of_mem hl)
  have hle := toInt_le_maxLogit hl
  have hbounds := toInt_bounds l
  have hbounds' := toInt_bounds m
  refine ⟨(maxLogit L - l.toInt).toNat, by omega, by omega, ?_⟩
  rw [expOfLogit]
  congr 2
  omega

theorem expOfLogit_fromZeroTo (hE1 : ExpInRange exp32 F) (hl : l ∈ L) :
    F32.FromZeroTo 1 (expOfLogit F exp32 (maxLogit L) l) := by
  obtain ⟨j, hj, -, heq⟩ := expOfLogit_eq (F := F) (exp32 := exp32) hl
  rw [heq, F32.fromZeroTo_one_iff]
  exact hE1 j hj

theorem expOfLogit_max (hE0 : ExpAtZero exp32) (h : l.toInt = maxLogit L) :
    expOfLogit F exp32 (maxLogit L) l = 0x3F800000#32 := by
  rw [expOfLogit, h, Int.sub_self, F32.ofFixed_zero, hE0]

theorem expOfLogit_mono (hE2 : ExpMonotone exp32 F) (hl : l ∈ L) (hl' : l' ∈ L) (h : l.toInt ≤ l'.toInt) :
    expOfLogit F exp32 (maxLogit L) l ≤ expOfLogit F exp32 (maxLogit L) l' := by
  obtain ⟨k, hk, hsum, heq⟩ := expOfLogit_eq (F := F) (exp32 := exp32) hl
  obtain ⟨j, -, hsum', heq'⟩ := expOfLogit_eq (F := F) (exp32 := exp32) hl'
  rw [heq, heq']
  exact hE2 j k (by omega) hk

/-- R167: the greatest logit alone adds 1.0, and ten exponentials add at most 10.0. -/
theorem floatSum_exp_bounds (hE0 : ExpAtZero exp32) (hE1 : ExpInRange exp32 F) (hlen : L.length = 10) :
    0x3F800000#32 ≤ floatSum ((shifted F L).map exp32) ∧ F32.FromZeroTo 10 (floatSum ((shifted F L).map exp32)) ∧
      ∀ l ∈ L, expOfLogit F exp32 (maxLogit L) l ≤ floatSum ((shifted F L).map exp32) := by
  have hne : L ≠ [] := List.ne_nil_of_length_eq_add_one hlen
  rw [map_exp_shifted]
  obtain ⟨hrange, hle⟩ := floatSum_bounds (es := L.map (expOfLogit F exp32 (maxLogit L)))
    (by rw [List.length_map]; omega) (List.forall_mem_map.mpr fun l hl => expOfLogit_fromZeroTo hE1 hl)
    (fun h => hne (List.map_eq_nil_iff.mp h))
  rw [List.length_map, hlen] at hrange
  rw [List.forall_mem_map] at hle
  obtain ⟨m, hm, hmax⟩ := exists_toInt_eq_maxLogit hne
  exact ⟨expOfLogit_max (F := F) hE0 hmax ▸ hle m hm, hrange, hle⟩

theorem flt_floatSum_exp (hE0 : ExpAtZero exp32) (hE1 : ExpInRange exp32 F) (hlen : L.length = 10)
    (heps : eps ≤ 0x3F800000#32) : F32.flt (floatSum ((shifted F L).map exp32)) eps = false := by
  obtain ⟨hone, hten, -⟩ := floatSum_exp_bounds hE0 hE1 hlen
  exact F32.flt_eq_false_of_le hten.toNat_lt (F32.fromZeroTo_one_iff.mpr heps).toNat_lt (BitVec.le_trans heps hone)

/-- One probability where the fallback is not taken. -/
theorem getD_softmax_eq_fdiv (hE0 : ExpAtZero exp32) (hE1 : ExpInRange exp32 F) (hlen : L.length = 10)
    (heps : eps ≤ 0x3F800000#32) {i : Nat} (hi : i < 10) :
    (softmax F exp32 eps L).getD i 0#32 =
      F32.fdiv (expOfLogit F exp32 (maxLogit L) (L.getD i 0#16)) (floatSum ((shifted F L).map exp32)) := by
  rw [getD_softmax (hlen ▸ hi), flt_floatSum_exp hE0 hE1 hlen heps, if_neg Bool.false_ne_true]

end Exponential

/-- Settles O48: the sum is at least 1.0 and so not below the epsilon. -/
theorem softmaxFallbackIsUnreachable : Obligations.SoftmaxFallbackIsUnreachable := by
  intro exp32 F L eps hE0 hE1 _ hlen _ heps
  obtain ⟨hone, hten, -⟩ := floatSum_exp_bounds hE0 hE1 hlen
  have hflt := flt_floatSum_exp hE0 hE1 hlen heps
  refine ⟨hone, F32.fromZeroTo_ten_iff.mp hten, hflt, ?_⟩
  rw [softmax, normalize, hflt, if_neg Bool.false_ne_true]

/-- Settles O49: each probability is its exponential over one sum, which is no less than any of them and at most 10.0. -/
theorem softmaxRangeAndOrder : Obligations.SoftmaxRangeAndOrder := by
  intro exp32 F L eps hE0 hE1 hE2 _ hlen _ heps i j hi hj
  obtain ⟨hone, hten, hle⟩ := floatSum_exp_bounds hE0 hE1 hlen
  have hpos : 0 < (floatSum ((shifted F L).map exp32)).toNat := Nat.lt_of_lt_of_le (by decide) (BitVec.le_def.mp hone)
  have hmem {n : Nat} (hn : n < 10) : L.getD n 0#16 ∈ L := by
    rw [List.getD_eq_getElem _ _ (hlen ▸ hn)]
    exact List.getElem_mem _
  rw [getD_softmax_eq_fdiv hE0 hE1 hlen heps hi, getD_softmax_eq_fdiv hE0 hE1 hlen heps hj]
  refine ⟨F32.fdiv_le_one hten.toNat_lt hpos (hle _ (hmem hi)), fun hmax => ?_, fun hij => ?_⟩
  · have hgreatest : maxLogit L = (L.getD i 0#16).toInt :=
      (maxLogit_eq_iff (List.ne_nil_of_mem (hmem hi))).mpr ⟨⟨_, hmem hi, rfl⟩, hmax⟩
    rw [expOfLogit_max hE0 hgreatest.symm]
    exact F32.oneTenth_le_fdiv hpos hten
  · exact F32.fdiv_mono hten.toNat_lt hpos (expOfLogit_fromZeroTo hE1 (hmem hj)).toNat_lt
      (expOfLogit_mono hE2 (hmem hi) (hmem hj) hij)

end Sys2Proof.Machine
end

section
/-! The loading lists: where the weight of each tuple of indices stands (R51, R180, R181), and the image normaliser
(R183). -/

namespace Sys2Proof

/-! ### Lists of equally long blocks, one for each number of a range -/

section Blocks

variable {α : Type} {A B C a b c : Nat}

theorem length_flatMap_range {f : Nat → List α} (hlen : ∀ i, (f i).length = B) :
    ((List.range A).flatMap f).length = A * B := by
  simp [List.length_flatMap, hlen]

/-- The list is in row-major order, as linear indices are (R51). -/
theorem getElem?_flatMap_range {f : Nat → List α} (hlen : ∀ i, (f i).length = B) (ha : a < A) (hb : b < B) :
    ((List.range A).flatMap f)[a * B + b]? = (f a)[b]? := by
  induction A with
  | zero => exact absurd ha (Nat.not_lt_zero a)
  | succ A ih =>
    have hfront : ((List.range A).flatMap f).length = A * B := length_flatMap_range hlen
    rw [List.range_succ, List.flatMap_append, List.flatMap_singleton]
    obtain hlt | rfl := Nat.lt_succ_iff_lt_or_eq.mp ha
    · rw [List.getElem?_append_left (hfront ▸ mul_add_lt_mul hlt hb), ih hlt]
    · rw [List.getElem?_append_right (hfront ▸ Nat.le_add_right ..), hfront, Nat.add_sub_cancel_left]

theorem length_grid (f : Nat → Nat → α) :
    ((List.range A).flatMap fun a => (List.range B).map (f a)).length = A * B :=
  length_flatMap_range fun _ => by rw [List.length_map, List.length_range]

theorem getElem?_grid (f : Nat → Nat → α) (ha : a < A) (hb : b < B) :
    ((List.range A).flatMap fun a => (List.range B).map (f a))[a * B + b]? = some (f a b) := by
  rw [getElem?_flatMap_range (fun _ => by rw [List.length_map, List.length_range]) ha hb, List.getElem?_map,
    List.getElem?_range hb, Option.map_some]

theorem length_box (f : Nat → Nat → Nat → α) :
    ((List.range A).flatMap fun a => (List.range B).flatMap fun b => (List.range C).map (f a b)).length =
      A * (B * C) :=
  length_flatMap_range fun a => length_grid (f a)

theorem getElem?_box (f : Nat → Nat → Nat → α) (ha : a < A) (hb : b < B) (hc : c < C) :
    ((List.range A).flatMap fun a => (List.range B).flatMap fun b =>
      (List.range C).map (f a b))[a * (B * C) + (b * C + c)]? = some (f a b c) := by
  rw [getElem?_flatMap_range (fun a => length_grid (f a)) ha (mul_add_lt_mul hb hc), getElem?_grid (f a) hb hc]

end Blocks

/-! ### The taps of a convolution -/

theorem ConvShape.length_taps (g : ConvShape) : g.taps.length = g.Z * (g.KH * g.KW) :=
  length_box fun z ky kx => (z, ky, kx)

theorem ConvShape.getElem?_taps {g : ConvShape} {z ky kx : Nat} (hz : z < g.Z) (hky : ky < g.KH) (hkx : kx < g.KW) :
    g.taps[z * (g.KH * g.KW) + (ky * g.KW + kx)]? = some (z, ky, kx) :=
  getElem?_box (fun z ky kx => (z, ky, kx)) hz hky hkx

/-- The kernel of one output channel is one block of weights, in the order of the taps (R51). -/
theorem idx4_eq_block (Z KH KW k z ky kx : Nat) :
    idx4 Z KH KW k z ky kx = k * (Z * (KH * KW)) + (z * (KH * KW) + (ky * KW + kx)) := by
  rw [idx4]
  ring

end Sys2Proof

namespace Sys2Proof.Machine

/-! ### The loading lists -/

theorem getElem?_convEntries {g : ConvShape} (Wf : Nat → Nat → Nat → Nat → F32) {k z ky kx : Nat} (hk : k < g.K)
    (hz : z < g.Z) (hky : ky < g.KH) (hkx : kx < g.KW) :
    (convEntries g Wf)[idx4 g.Z g.KH g.KW k z ky kx]? =
      some (idx4 g.Z g.KH g.KW k z ky kx, Wf ky kx z k) := by
  have htap : z * (g.KH * g.KW) + (ky * g.KW + kx) < g.Z * (g.KH * g.KW) :=
    mul_add_lt_mul hz (mul_add_lt_mul hky hkx)
  rw [convEntries, idx4_eq_block,
    getElem?_flatMap_range (fun _ => by rw [List.length_map, g.length_taps]) hk htap, List.getElem?_map,
    ConvShape.getElem?_taps hz hky hkx, Option.map_some, idx4_eq_block]

theorem length_fc1Entries (Wf : Nat → Nat → F32) : (fc1Entries Wf).length = 256000 :=
  length_flatMap_range (B := 640) fun _ => length_box _

/-- A row of FC1 is forty planes of 4 × 4, as POOL2 leaves them (R181). -/
theorem getElem?_fc1Row {α : Type} (f : Nat → Nat → Nat → α) {c h w : Nat} (hc : c < 40) (hh : h < 4) (hw : w < 4) :
    ((List.range 40).flatMap fun c => (List.range 4).flatMap fun h =>
      (List.range 4).map (f c h))[c * 16 + h * 4 + w]? = some (f c h w) := by
  rw [Nat.add_assoc]
  exact getElem?_box f hc hh hw

theorem getElem?_fc1Entries (Wf : Nat → Nat → F32) {k c h w : Nat} (hk : k < 400) (hc : c < 40) (hh : h < 4)
    (hw : w < 4) :
    (fc1Entries Wf)[k * 640 + (c * 16 + h * 4 + w)]? =
      some (k * 640 + (c * 16 + h * 4 + w), Wf ((h * 4 + w) * 40 + c) k) := by
  have hcol : c * 16 + h * 4 + w < 640 := by omega
  exact (getElem?_flatMap_range (fun _ => length_box _) hk hcol).trans
    (getElem?_fc1Row (fun c h w => (idx2 fc1Shape.In k (c * 16 + h * 4 + w), Wf ((h * 4 + w) * 40 + c) k)) hc hh hw)

theorem getElem?_fc2Entries (Wf : Nat → Nat → F32) {k i : Nat} (hk : k < 10) (hi : i < 400) :
    (fc2Entries Wf)[k * 400 + i]? = some (k * 400 + i, Wf i k) :=
  getElem?_grid (fun k i => (idx2 fc2Shape.In k i, Wf i k)) hk hi

/-- Settles O58: each list is made of equally long blocks, and block and place within it are the digits of the index. -/
theorem weightLayoutPairsIndices : Obligations.WeightLayoutPairsIndices :=
  ⟨fun Wf _ _ _ _ hk hc hh hw => getElem?_fc1Entries Wf hk hc hh hw, length_fc1Entries,
    fun _ Wf _ _ _ _ hk hz hky hkx => getElem?_convEntries Wf hk hz hky hkx,
    fun Wf _ _ hk hi => getElem?_fc2Entries Wf hk hi⟩

/-! ### The image normaliser -/

theorem pixel_quotient_le (F : Nat) (p : BitVec 8) : p.toNat * 2 ^ F / 255 ≤ 2 ^ F :=
  Nat.div_le_of_le_mul (Nat.mul_le_mul_right _ (Nat.le_of_lt_succ p.isLt))

/-- The quotient is at most `2^14`, so 16 bits hold it as a signed value. -/
theorem toInt_normalizePixel {F : Nat} (hF : F ≤ 14) (p : BitVec 8) :
    (normalizePixel F p).toInt = (p.toNat * 2 ^ F / 255 : Nat) := by
  have hpow : 2 ^ F ≤ 2 ^ 14 := Nat.pow_le_pow_right Nat.two_pos hF
  have hle := pixel_quotient_le F p
  exact toInt_ofNat_of_le (by omega)

theorem normalizePixel_255 (F : Nat) : normalizePixel F 255#8 = BitVec.ofNat 16 (2 ^ F) :=
  congrArg (BitVec.ofNat 16) (Nat.mul_div_cancel_left (2 ^ F) (by decide))

/-- Settles O59: a pixel is at most 255, so the quotient is at most `2^F`. -/
theorem normalizedPixelRange : Obligations.NormalizedPixelRange := by
  intro F p hF
  have hfloor := toInt_normalizePixel hF p
  refine ⟨hfloor, hfloor ▸ Int.natCast_nonneg _, ?_, ?_⟩
  · rw [hfloor]
    exact_mod_cast pixel_quotient_le F p
  · rintro rfl
    rw [normalizePixel_255, toInt_ofNat_two_pow hF]

end Sys2Proof.Machine
end

section
/-! The commands and the core's turn: a single-stage command is one step, FORWARD performs the stage that STAGE holds, and
an accepted command has the next turn (R33, R37, R190 to R195, R199, R230). -/

namespace Sys2Proof.Machine

/-! ### The stages -/

/-- The stage of id `n` writes no 16-bit space but the one of id `n` (R37, R88). -/
theorem IsStage.read16_frame {n : StageId} {f : State → State} (h : IsStage n f) (s : State) {sp : Space16}
    (hsp : sp.id ≠ n.toNat) (i : Nat) : (f s).read16 sp i = s.read16 sp i := by
  cases h with
  | nop => rfl
  | conv1 => rw [conv1Body_read16, if_neg (by rintro rfl; exact hsp rfl)]
  | pool1 => rw [pool1Body_read16, if_neg (by rintro rfl; exact hsp rfl)]
  | conv2 => rw [conv2Body_read16, if_neg (by rintro rfl; exact hsp rfl)]
  | pool2 => rw [pool2Body_read16, if_neg (by rintro rfl; exact hsp rfl)]
  | fc1 => rw [fc1Body_read16, if_neg (by rintro rfl; exact hsp rfl)]
  | fc2 => rw [fc2Body_read16, if_neg (by rintro rfl; exact hsp rfl)]
  | softmax => exact softmaxBody_read16 s sp i
  | argmax => exact argmaxBody_read16 s sp i
  | quant => exact quantBody_read16 s sp i
  | dequant => exact dequantBody_read16 s sp i

/-- Stage 7 alone writes PROB. -/
theorem IsStage.prob_eq {n : StageId} {f : State → State} (h : IsStage n f) (s : State) (hn : n ≠ 7#4) :
    (f s).prob = s.prob := by
  cases h with
  | nop => rfl
  | conv1 => exact conv1Body_prob s
  | pool1 => exact pool1Body_prob s
  | conv2 => exact conv2Body_prob s
  | pool2 => exact pool2Body_prob s
  | fc1 => exact fc1Body_prob s
  | fc2 => exact fc2Body_prob s
  | softmax => exact absurd rfl hn
  | argmax => exact argmaxBody_prob s
  | quant => exact quantBody_prob s
  | dequant => exact dequantBody_prob s

/-- The stages that FORWARD runs write memories alone (R37). -/
theorem IsStage.sameRegs {n : StageId} {f : State → State} (h : IsStage n f) (hn : isForwardStage n = true)
    (s : State) : s.sameRegs (f s) := by
  cases h with
  | nop | argmax | quant | dequant => exact absurd hn (by decide)
  | conv1 | pool1 | conv2 | pool2 | fc1 | fc2 | softmax => simp [State.sameRegs]

theorem IsStage.sameHost {n : StageId} {f : State → State} (h : IsStage n f) (s : State) :
    s.sameHost (f s) := by
  cases h with
  | nop => exact ⟨rfl, rfl⟩
  | conv1 | pool1 | conv2 | pool2 | fc1 | fc2 | softmax | argmax | quant | dequant => simp [State.sameHost]

/-! ### The commands -/

/-- A command other than FORWARD, by the body of its own stage. -/
theorem exec_of_isStage {i : Instr} {f : State → State} (hi : i ≠ .forward) (hf : IsStage i.firstStage f)
    (s : State) : exec i s = .next (f s).complete := by
  obtain ⟨b, hb, hexec⟩ := exec_singleStage hi s
  rw [hexec, ← Option.some.inj ((hf.stageBody_eq s).symm.trans hb)]

/-- FORWARD, by the body of the stage that STAGE holds. -/
theorem exec_forward_of_isStage {f : State → State} {s : State} (hf : IsStage s.status.stage f)
    (hn : isForwardStage s.status.stage = true) : exec .forward s = .next ((f s).endStage 7#4) := by
  obtain ⟨b, hb, hexec⟩ := exec_forward hn
  rw [hexec, ← Option.some.inj ((hf.stageBody_eq s).symm.trans hb)]

/-- A stage of FORWARD that is not its last is followed by the next one (R33, R191). -/
theorem exec_forward_advance {n : StageId} {f : State → State} (hf : IsStage n f)
    (hn : isForwardStage n = true) (hlast : n ≠ 7#4) {n' : StageId} (hn' : n + 1#4 = n') {s : State}
    (hs : s.status.stage = n) :
    exec .forward s = .next { f s with status := { s.status with stage := n' } } := by
  subst hs
  rw [exec_forward_of_isStage hf hn, State.endStage, hf.status_eq, Status.endStage, if_neg hlast,
    Status.advance, hn']

theorem exec_forward_last {s : State} (hs : s.status.stage = 7#4) :
    exec .forward s = .next { softmaxBody s with
      status := { s.status with busy := false, done := true, stage := 0#4 } } := by
  have hf : IsStage s.status.stage softmaxBody := by rw [hs]; exact .softmax
  have hn : isForwardStage s.status.stage = true := by rw [hs]; decide
  rw [exec_forward_of_isStage hf hn, State.endStage, softmaxBody_status, Status.endStage, if_pos hs,
    Status.complete]

/-- Settles O33. -/
theorem nopOnlyCompletes : Obligations.NopOnlyCompletes := ⟨decode_encode .nop, rfl, exec_nop⟩

/-- Settles O6: such a command is the body of its own stage, which does not touch STATUS, and then the end of the
command. -/
theorem singleStageCommandsComplete : Obligations.SingleStageCommandsComplete := by
  intro s i hi
  obtain ⟨b, hb, hexec⟩ := exec_singleStage hi s
  obtain ⟨f, hf, rfl⟩ := stageBody_cases hb
  refine ⟨(f s).complete, f s, hb, hexec, rfl, ?_⟩
  rw [State.completedFrom, State.complete_status, hf.status_eq, Status.complete]

/-- Settles O7: the frame is that of the one stage performed, and each of the seven stages ends as its place in the
order says. -/
theorem forwardPerformsItsStage : Obligations.ForwardPerformsItsStage := by
  refine ⟨fun s t h => ?_, fun s => ⟨exec_forward_advance .conv1 (by decide) (by decide) rfl,
    exec_forward_advance .pool1 (by decide) (by decide) rfl,
    exec_forward_advance .conv2 (by decide) (by decide) rfl,
    exec_forward_advance .pool2 (by decide) (by decide) rfl,
    exec_forward_advance .fc1 (by decide) (by decide) rfl,
    exec_forward_advance .fc2 (by decide) (by decide) rfl, exec_forward_last⟩⟩
  obtain ⟨-, hn, f, hf, rfl⟩ | ⟨hi, -⟩ := exec_cases h
  · refine ⟨fun sp i hsp => ?_, fun h7 i => ?_, hf.sameRegs hn s, hf.sameHost s⟩
    · rw [State.endStage_read16, hf.read16_frame s hsp]
    · rw [State.endStage_readProb, State.readProb, hf.prob_eq s h7, State.readProb]
  · exact absurd rfl hi

/-! ### Acceptance and the core's turn -/

/-- R88, from the command word. -/
theorem firstStage_eq_word (i : Instr) :
    i.firstStage = if encode i = 0x0000000F#32 then 1#4 else (encode i).extractLsb' 0 4 := by
  cases i <;> decide

/-- Settles O5. -/
theorem acceptedCommandSetsStatus : Obligations.AcceptedCommandSetsStatus := by
  rintro s es w i hidle rfl he
  have hstep := step_cmdWrite s s.status es s.rdata i hidle
  rw [← he, State.withShell_self, State.withShell, Status.accept, firstStage_eq_word] at hstep
  exact hstep

theorem coreTurn_busy {s : State} {i : Instr} (hbusy : s.status.busy = true)
    (hd : decode s.commandWord = .ok i) : coreTurn s = exec i s := by
  simp [coreTurn, hbusy, hd]

/-- The word of the running command decodes to the command whose opcode stands in CUR. -/
theorem decode_commandWord {s : State} {i : Instr} (h : s.status.cur = i.opcode) :
    decode s.commandWord = .ok i := by
  rw [State.commandWord, h]
  cases i <;> rfl

@[simp] theorem decodeTableWord_encode (i : Instr) : decodeTableWord 32 (encode i).toNat = some i := by
  cases i <;> rfl

/-- The turn that a placed command is given is the next step, whatever the host is still to do (R192, log 6). -/
theorem step_placeCommand (s : State) (i : Instr) : step (s.placeCommand i) = coreTurn (s.accept i) := by
  obtain he | ⟨e, es, he⟩ : s.events = [] ∨ ∃ e es, s.events = e :: es := by
    cases s.events with
    | nil => exact .inl rfl
    | cons e es => exact .inr ⟨e, es, rfl⟩
  · have hplace : s.placeCommand i = s.accept i := by
      rw [State.placeCommand, he]
      exact congrArg (fun es => { s.accept i with events := es }) he.symm
    rw [hplace, step_nil (s := s.accept i) he]
  · have hplace : (s.placeCommand i).events = .core :: e :: es := by rw [State.placeCommand, he]
    rw [step_core hplace, ← he]
    rfl

/-- A step after the end takes off one turn of the core, if one is left (R199). -/
theorem step_of_ended {s : State} (h : s.ended) :
    ∃ t : State, step s = .next t ∧ t.ended ∧ t = { s with events := s.events.tail } := by
  obtain ⟨hcore, hidle⟩ := h
  cases he : s.events with
  | nil =>
    refine ⟨s, ?_, ⟨hcore, hidle⟩, ?_⟩
    · rw [step_nil he, coreTurn_idle hidle]
    · rw [List.tail_nil, ← he]
  | cons e es =>
    rw [he] at hcore
    obtain rfl := hcore e List.mem_cons_self
    refine ⟨{ s with events := es }, ?_, ⟨fun e he' => hcore e (List.mem_cons_of_mem _ he'), hidle⟩, rfl⟩
    rw [step_core he, coreTurn_idle (s := { s with events := es }) hidle]

/-- Settles O4. -/
theorem stepRunsTheCommandInCur : Obligations.StepRunsTheCommandInCur := by
  refine ⟨fun s i hbusy hd he => ?_, fun s i es hbusy hd he => ?_, fun s hidle he => ?_,
    fun s es hidle he => ?_, fun s => step_of_ended, fun s i => ?_⟩
  · rw [step_nil he, coreTurn_busy hbusy hd]
  · rw [step_core he]
    exact coreTurn_busy (s := { s with events := es }) hbusy hd
  · rw [step_nil he, coreTurn_idle hidle]
  · rw [step_core he]
    exact coreTurn_idle (s := { s with events := es }) hidle
  · rw [State.withFetchWord, decodeTableWord_encode]
    exact (step_placeCommand s i).trans (coreTurn_busy rfl (decode_commandWord rfl))

end Sys2Proof.Machine
end

section
/-! While a command runs, a host move other than reset changes STATUS in ERR and ERRCODE at most, and nothing else of the
block (R60, R196, R208, R209). -/

namespace Sys2Proof.Machine

theorem State.sameBlock.mem_eq {s t : State} (h : s.sameBlock t) (sp : Space16) : t.mem sp = s.mem sp := by
  obtain ⟨d, es, v, rfl⟩ := h
  cases sp <;> rfl

/-- A write while busy is dropped with an error, or ignored by a read-only register. -/
theorem State.hostWrite_busy {s t : State} {a : Addr} {l : Location} {v : Element}
    (hbusy : s.status.busy = true) (h : s.hostWrite a l v = .next t) :
    t = s ∨ ∃ c, t = s.raiseCmdError c := by
  obtain ⟨sp, i, x, -, -, rfl⟩ | ⟨i, x, -, -, rfl⟩ | ⟨r, x, -, -, rfl⟩ := State.hostWrite_cases h
  · exact .inr ⟨writeWhileBusy, by rw [State.hostWrite16, if_pos hbusy]⟩
  · exact .inr ⟨writeWhileBusy, by rw [State.hostWriteProb, if_pos hbusy]⟩
  · cases r with
    | cmd => exact .inr ⟨cmdWhileBusy, by rw [State.hostWriteCsr, State.writeCmd, if_pos hbusy]⟩
    | qIn | dqIn => exact .inr ⟨writeWhileBusy, by rw [State.hostWriteCsr, if_pos hbusy]⟩
    | status | cfg | qOut | dqOut | amax => exact .inl rfl

theorem hostMove_busy {m : HostMove} {s t : State} (hbusy : s.status.busy = true) (hm : m ≠ .reset)
    (h : hostMove m s = .next t) : s.sameBlock t ∨ ∃ c, t = s.raiseCmdError c := by
  have same_of_eq (ht : t = s) : s.sameBlock t := ht ▸ s.sameBlock_withEvents s.events
  obtain ⟨a, l, -, -, rfl⟩ | ⟨a, l, v, -, -, hw⟩ | ⟨a, l, -, -, hw⟩ | ⟨-, rfl⟩ | ⟨hreset, -⟩ :=
    hostMove_cases h
  · exact .inl (s.sameBlock_hostRead l)
  · exact (State.hostWrite_busy hbusy hw).imp_left same_of_eq
  · exact (State.hostWrite_busy hbusy hw).imp_left same_of_eq
  · exact .inl s.sameBlock_hostWait
  · exact absurd hreset hm

/-- Settles O17: a read or a poll changes nothing of the block, and a write is dropped with an error or ignored. -/
theorem hostCannotDisturbARunningCommand : Obligations.HostCannotDisturbARunningCommand := by
  intro s t es m hbusy he hm h
  rw [step_host he] at h
  obtain hsame | ⟨c, rfl⟩ := hostMove_busy (s := { s with events := es }) hbusy hm h
  · refine ⟨fun sp => ?_, ?_⟩
    · rw [hsame.mem_eq, State.withEvents_mem]
    · obtain ⟨d, es', v, rfl⟩ := hsame
      exact ⟨rfl, ⟨rfl, rfl, rfl, rfl, rfl, rfl⟩, rfl⟩
  · refine ⟨fun sp => ?_, rfl, ⟨rfl, rfl, rfl, rfl, rfl, rfl⟩, rfl⟩
    rw [State.raiseCmdError_mem, State.withEvents_mem]

end Sys2Proof.Machine
end

section
/-! A state with the invariant whose host makes legal moves alone always has a next state of that kind (R54, R191, R199,
R205). -/

namespace Sys2Proof.Machine

/-! ### The core has a turn -/

/-- STAGE belongs to the command in CUR, so the stage to perform exists (R33, R191). -/
theorem exec_of_inv {s : State} {i : Instr} (hs : s.Inv) (hbusy : s.status.busy = true)
    (hcur : s.status.cur = i.opcode) : ∃ t, exec i s = .next t := by
  by_cases hi : i = .forward
  · subst hi
    obtain ⟨h1, h7⟩ : 1#4 ≤ s.status.stage ∧ s.status.stage ≤ 7#4 := hs.busyStage .forward hbusy hcur
    have hstage : isForwardStage s.status.stage = true := by
      simpa [isForwardStage, BitVec.le_def] using And.intro h1 h7
    obtain ⟨b, -, hexec⟩ := exec_forward hstage
    exact ⟨_, hexec⟩
  · obtain ⟨b, -, hexec⟩ := exec_singleStage hi s
    exact ⟨_, hexec⟩

theorem coreTurn_of_inv {s : State} (hs : s.Inv) : ∃ t, coreTurn s = .next t := by
  cases hbusy : s.status.busy with
  | false => exact ⟨s, coreTurn_idle hbusy⟩
  | true =>
    obtain ⟨i, hcur⟩ := hs.curLegal
    rw [coreTurn_busy hbusy (decode_commandWord hcur)]
    exact exec_of_inv hs hbusy hcur

/-! ### What the host is still to do -/

theorem exec_events {i : Instr} {s t : State} (h : exec i s = .next t) : t.events = s.events := by
  obtain ⟨-, -, f, hf, rfl⟩ | ⟨-, f, hf, rfl⟩ := exec_cases h
  · exact (State.endStage_events (f s) 7#4).trans (hf.sameHost s).1
  · exact (State.complete_events (f s)).trans (hf.sameHost s).1

theorem coreTurn_events {s t : State} (h : coreTurn s = .next t) : t.events = s.events := by
  obtain ⟨-, rfl⟩ | ⟨-, i, -, hexec⟩ := coreTurn_cases h
  · rfl
  · exact exec_events hexec

theorem State.hostRead_events (s : State) (l : Location) : (s.hostRead l).events = s.events := by
  cases l with
  | mem16 sp i =>
    rw [State.hostRead, State.hostRead16]
    split
    · rfl
    · split <;> rfl
  | prob i =>
    rw [State.hostRead, State.hostReadProb]
    split
    · rfl
    · split <;> rfl
  | csr r =>
    rw [State.hostRead, State.hostReadCsr]
    split <;> rfl

theorem HostWriteEffect.events_eq {s t : State} {l : Location} {v : Element} (h : HostWriteEffect s l v t) :
    t.events = s.events := by
  cases h with
  | stored16 sp i x => exact State.write16_events s sp i x
  | dropped | ignored | storedProb | storedQIn | storedDqIn | accepted | illegal => rfl

/-- Only a poll of WAIT adds to the list: a turn of the core and another poll (R86, R199). -/
theorem hostMove_events {m : HostMove} {s t : State} (h : hostMove m s = .next t) :
    t.events = s.events ∨ t.events = .core :: .host .wait :: s.events := by
  obtain ⟨a, l, -, -, rfl⟩ | ⟨a, l, v, -, -, hw⟩ | ⟨a, l, -, -, hw⟩ | ⟨-, rfl⟩ | ⟨-, rfl⟩ :=
    hostMove_cases h
  · exact .inl (s.hostRead_events l)
  · exact .inl (State.hostWrite_effect hw).events_eq
  · exact .inl (State.hostWrite_effect hw).events_eq
  · rw [State.hostWait]
    split
    · exact .inl (s.hostRead_events (.csr .status))
    · exact .inr rfl
  · exact .inl rfl

theorem State.hostLegal.of_events {s t : State} (h : s.hostLegal) (ht : t.events = s.events) : t.hostLegal := by
  rw [State.hostLegal, ht]
  exact h

theorem hostMove_hostLegal {m : HostMove} {s t : State} (hs : s.hostLegal) (h : hostMove m s = .next t) :
    t.hostLegal := by
  obtain ht | ht := hostMove_events h
  · exact hs.of_events ht
  · rw [State.hostLegal, ht]
    exact List.forall_mem_cons.mpr ⟨rfl, List.forall_mem_cons.mpr ⟨rfl, hs⟩⟩

/-! ### Every step and every run -/

/-- Settles O22: the invariant gives the core's turn a stage to perform, and a legal move of the host is answered. -/
theorem legalStepsNeverStop : Obligations.LegalStepsNeverStop := by
  intro s hs hlegal
  have core (es : List Event) (hes : State.hostLegal { s with events := es }) :
      ∃ t, coreTurn { s with events := es } = .next t ∧ t.hostLegal := by
    obtain ⟨t, ht⟩ := coreTurn_of_inv ((s.sameBlock_withEvents es).inv hs)
    exact ⟨t, ht, hes.of_events (coreTurn_events ht)⟩
  cases he : s.events with
  | nil =>
    rw [step_nil he]
    exact core s.events hlegal
  | cons e es =>
    rw [State.hostLegal, he, List.forall_mem_cons] at hlegal
    obtain ⟨hwf, hes⟩ := hlegal
    cases e with
    | core =>
      rw [step_core he]
      exact core es hes
    | host m =>
      rw [step_host he]
      obtain ⟨t, ht⟩ := hostMove_of_wf { s with events := es } hwf
      exact ⟨t, ht, hostMove_hostLegal (s := { s with events := es }) hes ht⟩

theorem runSteps_of_inv (n : Nat) {s : State} (hs : s.Inv) (hlegal : s.hostLegal) :
    ∃ t, runSteps n s = .next t ∧ t.Inv := by
  induction n generalizing s with
  | zero => exact ⟨s, runSteps_zero s, hs⟩
  | succ n ih =>
    obtain ⟨s', hstep, hlegal'⟩ := legalStepsNeverStop s hs hlegal
    rw [runSteps_next hstep]
    exact ih (step_inv hs hstep) hlegal'

/-- Settles O23: the state after reset has the invariant, whatever the host is then given to do. -/
theorem runsFromResetNeverStop : Obligations.RunsFromResetNeverStop := fun n es hes =>
  runSteps_of_inv n ((State.reset.sameBlock_withEvents es).inv resetMeetsTheInvariant) hes

end Sys2Proof.Machine
end

section
/-! FORWARD as its seven stages, and as the seven single-stage commands one after another (R190, R195, R196). -/

namespace Sys2Proof.Machine

/-- The bodies of the seven stages in the order of FORWARD (R190). -/
def State.sevenStages (s : State) : State :=
  softmaxBody (fc2Body (fc1Body (pool2Body (conv2Body (pool1Body (conv1Body s))))))

theorem State.sevenStages_withShell (s : State) (t : Status) (es : List Event) (v : Element) :
    (s.withShell t es v).sevenStages = s.sevenStages.withShell t es v := by
  rw [State.sevenStages, conv1Body_withShell, pool1Body_withShell, conv2Body_withShell, pool2Body_withShell,
    fc1Body_withShell, fc2Body_withShell, softmaxBody_withShell, State.sevenStages]

theorem State.sameHost_sevenStages (s : State) : s.sameHost s.sevenStages := by
  simp [State.sameHost, State.sevenStages]

/-- Settles O52. -/
theorem forwardIsTheSevenStages : Obligations.ForwardIsTheSevenStages := by
  intro s hbusy hcur hstage hevents
  obtain ⟨hev, hread⟩ := s.sameHost_sevenStages
  calc runSteps 7 s = .next (s.sevenStages.withShell s.status.complete [] s.rdata) :=
        runSteps_forward hbusy hcur hstage hevents
    _ = .next (s.sevenStages.withShell s.status.complete s.sevenStages.events s.sevenStages.rdata) := by
        rw [hread, hev, hevents]

/-! ### Turns of the core written out in `events` -/

theorem IsStage.withEvents {n : StageId} {f : State → State} (h : IsStage n f) (s : State) (es : List Event) :
    f { s with events := es } = { f s with events := es } := by
  obtain ⟨-, hread⟩ := h.sameHost s
  calc f { s with events := es } = (f s).withShell s.status es s.rdata := h.withShell s s.status es s.rdata
    _ = (f s).withShell (f s).status es (f s).rdata := by rw [h.status_eq, hread]

/-- A command does not look at what the host is still to do. -/
theorem exec_withEvents {i : Instr} {s t : State} (h : exec i s = .next t) (es : List Event) :
    exec i { s with events := es } = .next { t with events := es } := by
  obtain ⟨rfl, hn, f, hf, rfl⟩ | ⟨hi, f, hf, rfl⟩ := exec_cases h
  · rw [exec_forward_of_isStage (s := { s with events := es }) hf hn, hf.withEvents]
    rfl
  · rw [exec_of_isStage hi hf, hf.withEvents]
    rfl

theorem coreTurn_withEvents {s t : State} (h : coreTurn s = .next t) (es : List Event) :
    coreTurn { s with events := es } = .next { t with events := es } := by
  obtain ⟨hidle, rfl⟩ | ⟨hbusy, i, hd, hexec⟩ := coreTurn_cases h
  · exact coreTurn_idle (s := { t with events := es }) hidle
  · rw [coreTurn_busy (s := { s with events := es }) hbusy hd, exec_withEvents hexec]

/-- A run that answers a next state has done so from its first step on. -/
theorem run_succ_eq_next {M : Host.Core} {n : Nat} {s t : M.State} (h : M.run (n + 1) s = .next t) :
    ∃ u, M.step s = .next u ∧ M.run n u = .next t := by
  rw [Host.Core.run] at h
  split at h
  next u hu => exact ⟨u, hu, h⟩
  next => cases h
  next => cases h

/-- Turns of the core that are entries of `events` do what the turns do that follow an empty list (R199). -/
theorem runSteps_replicate_core (n : Nat) {s t : State} (hs : s.events = []) (h : runSteps n s = .next t) :
    runSteps n { s with events := List.replicate n .core } = .next t := by
  induction n generalizing s with
  | zero => rw [← h, List.replicate_zero, ← hs]
  | succ n ih =>
    obtain ⟨u, hu, h⟩ := run_succ_eq_next h
    replace hu : step s = .next u := hu
    rw [step_nil hs] at hu
    have hstep : step { s with events := List.replicate (n + 1) .core } =
        .next { u with events := List.replicate n .core } := coreTurn_withEvents hu _
    rw [runSteps_next hstep]
    exact ih ((coreTurn_events hu).trans hs) h

/-! ### The two ways through the seven stages -/

/-- FORWARD is written while idle, and then the core has seven turns. -/
theorem runSteps_forwardCommand {s : State} (hidle : s.status.busy = false) :
    runSteps 8 { s with events := cmdLine .forward ++ List.replicate 7 .core } =
      .next (s.sevenStages.withShell (s.status.accept .forward).complete [] s.rdata) := by
  have hturns := runSteps_replicate_core 7 rfl
    (runSteps_forward (s := s.withShell (s.status.accept .forward) [] s.rdata) rfl rfl rfl rfl)
  rw [← State.sevenStages, State.sevenStages_withShell] at hturns
  exact (runSteps_next (step_cmdWrite s s.status _ s.rdata .forward hidle)).trans hturns

/-- A command other than FORWARD is written while idle, and then the core has one turn. -/
theorem runSteps_command {i : Instr} {f : State → State} (hi : i ≠ .forward) (hf : IsStage i.firstStage f)
    (k : Nat) (s : State) {t : Status} (hidle : t.busy = false) (es : List Event) (v : Element) :
    runSteps (k + 2) (s.withShell t (cmdLine i ++ [.core] ++ es) v) =
      runSteps k ((f s).withShell (t.accept i).complete es v) :=
  (runSteps_next (step_cmdWrite s t _ v i hidle)).trans
    (runSteps_next (step_singleStage hi (hf.stageBody_eq s) rfl rfl))

theorem runSteps_sevenCommands {s : State} (hidle : s.status.busy = false) :
    runSteps 14 { s with events := cmdLine .conv1 ++ [.core] ++ (cmdLine .pool1 ++ [.core]) ++
        (cmdLine .conv2 ++ [.core]) ++ (cmdLine .pool2 ++ [.core]) ++ (cmdLine .fc1 ++ [.core]) ++
        (cmdLine .fc2 ++ [.core]) ++ (cmdLine .softmax ++ [.core]) } =
      .next (s.sevenStages.withShell (s.status.accept .softmax).complete [] s.rdata) :=
  calc _ = _ := runSteps_command (i := .conv1) (by decide) .conv1 12 s hidle _ s.rdata
    _ = _ := runSteps_command (i := .pool1) (by decide) .pool1 10 _ rfl _ _
    _ = _ := runSteps_command (i := .conv2) (by decide) .conv2 8 _ rfl _ _
    _ = _ := runSteps_command (i := .pool2) (by decide) .pool2 6 _ rfl _ _
    _ = _ := runSteps_command (i := .fc1) (by decide) .fc1 4 _ rfl _ _
    _ = _ := runSteps_command (i := .fc2) (by decide) .fc2 2 _ rfl _ _
    _ = _ := runSteps_command (i := .softmax) (by decide) .softmax 0 _ rfl [] _

/-- Settles O53: either run applies the same seven bodies, and the two shells differ in the command last accepted. -/
theorem forwardEqualsSevenCommands : Obligations.ForwardEqualsSevenCommands := by
  intro s hidle
  have hcommands := runSteps_sevenCommands hidle
  have hforward := runSteps_forwardCommand hidle
  generalize s.sevenStages = b at hcommands hforward
  exact ⟨_, hcommands, rfl, hforward⟩

end Sys2Proof.Machine
end

section
/-! The forward pass over zeros: every stage hands on zeros, and ten equal logits give ten times one tenth (R171, R200). -/

namespace Sys2Proof.Machine

/-! ### The operators over zeros -/

/-- Every index below `n` holds the value 0. -/
def ZeroBelow (n : Nat) (f : Nat → Option S16) : Prop := ∀ i : Nat, i < n → f i = some 0#16

theorem ZeroBelow.holdsBelow {n : Nat} {f : Nat → Option S16} (h : ZeroBelow n f) : HoldsBelow n f :=
  fun i hi => ⟨0#16, h i hi⟩

theorem conv2dAt_zeros {F : Nat} {g : ConvShape} {inp ker bias : Nat → Option S16} (hg : g.wf = true)
    (hinp : ZeroBelow g.inputs inp) (hker : ZeroBelow g.weights ker) (hbias : ZeroBelow g.K bias) :
    ZeroBelow g.outputs (conv2dAt F g inp ker bias) := by
  intro i hi
  obtain ⟨hk, hy, hx⟩ := coordinates_lt hi
  simp only [ConvShape.wf, Bool.and_eq_true, decide_eq_true_eq] at hg
  obtain ⟨⟨⟨-, hKH⟩, -⟩, hKW⟩ := hg
  have hwindow : g.WindowHolds inp ker (fun _ => 0#16) (fun _ => 0#16) (i / (g.OH * g.OW)) (i / g.OW % g.OH)
      (i % g.OW) := fun z ky kx hz hky hkx =>
    ⟨hinp _ (idx3_lt hz (ConvShape.row_lt hKH hy hky) (ConvShape.column_lt hKW hx hkx)),
      hker _ (idx4_lt hk hz hky hkx)⟩
  rw [conv2dAt, conv2d_eq_some (hbias _ hk) hwindow]
  simp [ConvShape.windowSum, wrap32, asr, wrap16]

theorem maxpool2At_zeros {g : PoolShape} {inp : Nat → Option S16} (hinp : ZeroBelow (g.C * g.H * g.W) inp) :
    ZeroBelow g.outputs (maxpool2At g inp) := by
  intro i hi
  obtain ⟨hc, hy, hx⟩ := coordinates_lt hi
  have element {r c : Nat} (hr : r < g.H) (hcol : c < g.W) := hinp _ (idx3_lt hc hr hcol)
  rw [maxpool2At, maxpool2, element (by omega) (by omega), element (by omega) (by omega),
    element (by omega) (by omega), element (by omega) (by omega)]
  rfl

theorem dense_zeros {F : Nat} {g : DenseShape} {x wt bias : Nat → Option S16} {r : Bool}
    (hx : ZeroBelow g.In x) (hwt : ZeroBelow (g.Out * g.In) wt) (hbias : ZeroBelow g.Out bias) :
    ZeroBelow g.Out (dense F g x wt bias r) := by
  intro k hk
  have hrow : g.RowHolds x wt (fun _ => 0#16) (fun _ => 0#16) k := fun i hi =>
    ⟨hx i hi, hwt _ (idx2_lt hk hi)⟩
  rw [dense_eq_some r (hbias k hk) hrow]
  cases r <;> simp [DenseShape.rowSum, finishReduce, relu, wrap32, asr, wrap16]

/-! ### The stages over zeros -/

/-- The spaces of the list are wholly 0. -/
def State.zeroOn (sps : List Space16) (s : State) : Prop := ∀ sp ∈ sps, ZeroBelow sp.size (s.read16 sp)

namespace State.zeroOn

variable {sps : List Space16} {s : State}

theorem fill16 (h : s.zeroOn sps) {sp : Space16} {f : Nat → Option S16} (hf : ZeroBelow sp.size f) :
    (s.fill16 sp f).zeroOn (sp :: sps) := by
  intro sp' hmem i hi
  by_cases hsp : sp' = sp
  · subst hsp
    rw [State.read16_fill16_of_holds hf.holdsBelow, if_pos hi, hf i hi]
  · rw [State.read16_fill16_other hsp]
    exact h sp' (List.mem_of_ne_of_mem hsp hmem) i hi

theorem conv1 (h : s.zeroOn sps) (himg : .img ∈ sps) (hw : .wC1 ∈ sps) (hb : .bC1 ∈ sps) :
    (conv1Body s).zeroOn (.c1 :: sps) :=
  h.fill16 (conv2dAt_zeros (g := conv1Shape) (by decide) (h _ himg) (h _ hw) (h _ hb))

theorem pool1 (h : s.zeroOn sps) (hc1 : .c1 ∈ sps) : (pool1Body s).zeroOn (.p1 :: sps) :=
  h.fill16 (maxpool2At_zeros (g := pool1Shape) (h _ hc1))

theorem conv2 (h : s.zeroOn sps) (hp1 : .p1 ∈ sps) (hw : .wC2 ∈ sps) (hb : .bC2 ∈ sps) :
    (conv2Body s).zeroOn (.c2 :: sps) :=
  h.fill16 (conv2dAt_zeros (g := conv2Shape) (by decide) (h _ hp1) (h _ hw) (h _ hb))

theorem pool2 (h : s.zeroOn sps) (hc2 : .c2 ∈ sps) : (pool2Body s).zeroOn (.p2 :: sps) :=
  h.fill16 (maxpool2At_zeros (g := pool2Shape) (h _ hc2))

theorem fc1 (h : s.zeroOn sps) (hp2 : .p2 ∈ sps) (hw : .wF1 ∈ sps) (hb : .bF1 ∈ sps) :
    (fc1Body s).zeroOn (.h1 :: sps) :=
  h.fill16 (dense_zeros (g := fc1Shape) (h _ hp2) (h _ hw) (h _ hb))

theorem fc2 (h : s.zeroOn sps) (hh1 : .h1 ∈ sps) (hw : .wF2 ∈ sps) (hb : .bF2 ∈ sps) :
    (fc2Body s).zeroOn (.logit :: sps) :=
  h.fill16 (dense_zeros (g := fc2Shape) (h _ hh1) (h _ hw) (h _ hb))

end State.zeroOn

/-- R171 (d), for the stage body that FORWARD runs. -/
theorem softmaxBody_readProb_of_equal {s : State} {l : S16} (h : ∀ i, i < 10 → s.read16 .logit i = some l)
    {i : Nat} (hi : i < 10) : (softmaxBody s).readProb i = some 0x3DCCCCCD#32 := by
  obtain ⟨t, hexec, ht⟩ := equalLogitsGiveOneTenth s l h
  obtain rfl : (softmaxBody s).complete = t := Host.Outcome.next.inj hexec
  exact ht i hi

/-- Settles O55: the six memory stages carry the zeros of IMG and the weights through to LOGIT. -/
theorem allZeroForwardIsUniform : Obligations.AllZeroForwardIsUniform := by
  intro s hbusy hcur hstage hevents hzero
  have h0 : s.zeroOn forwardInputs := fun sp hmem i => hzero sp i (mem_forwardInputs.mp hmem)
  have h1 := h0.conv1 (by decide) (by decide) (by decide)
  have h2 := h1.pool1 (by decide)
  have h3 := h2.conv2 (by decide) (by decide) (by decide)
  have h4 := h3.pool2 (by decide)
  have h5 := h4.fc1 (by decide) (by decide) (by decide)
  have h6 := h5.fc2 (by decide) (by decide) (by decide)
  have hlogit := h6 .logit List.mem_cons_self
  refine ⟨_, runSteps_forward hbusy hcur hstage hevents, fun i hi => ⟨?_, ?_⟩⟩
  · rw [State.withShell_read16, softmaxBody_read16]
    exact hlogit i hi
  · rw [State.withShell_readProb]
    exact softmaxBody_readProb_of_equal hlogit hi

end Sys2Proof.Machine
end

section
/-! Errors and reset: what a write while busy records, that an error once recorded stays until reset, and what the reset
move leaves (R205 to R212, R230, R231). -/

namespace Sys2Proof.Machine

/-! ### Writes while the core owns the block -/

theorem State.hostWrite16_busy {s : State} (sp : Space16) (i : Nat) (v : S16) (h : s.status.busy = true) :
    s.hostWrite16 sp i v = s.raiseCmdError writeWhileBusy := by
  simp [State.hostWrite16, h]

theorem State.hostWriteProb_busy {s : State} (i : Nat) (v : F32) (h : s.status.busy = true) :
    s.hostWriteProb i v = s.raiseCmdError writeWhileBusy := by
  simp [State.hostWriteProb, h]

/-- The two registers that the host writes and the core owns (R29, R30, R60). -/
theorem State.hostWriteCsr_busy {s : State} {r : Csr} (w : U32) (h : s.status.busy = true)
    (hr : r = .qIn ∨ r = .dqIn) : s.hostWriteCsr r w = s.raiseCmdError writeWhileBusy := by
  obtain rfl | rfl := hr <;> simp [State.hostWriteCsr, h]

/-- The busy test stands before the decoder, so it does not matter whether the word is a command (R208, R211). -/
theorem State.hostWriteCsr_cmd_busy {s : State} (w : U32) (h : s.status.busy = true) :
    s.hostWriteCsr .cmd w = s.raiseCmdError cmdWhileBusy := by
  simp [State.hostWriteCsr, State.writeCmd, h]

/-- A value of the right width at a memory element, Q_IN or DQ_IN is dropped while busy (R60, R209). -/
theorem State.hostWrite_dropped {s : State} {a : Addr} {l : Location} {v : Element}
    (hbusy : s.status.busy = true) (hl : resolve a = some l) (hv : v.fits a = true)
    (hreg : ∀ r : Csr, l = .csr r → r = .qIn ∨ r = .dqIn) :
    s.hostWrite a l v = .next (s.raiseCmdError writeWhileBusy) := by
  obtain ⟨t, ht⟩ := s.hostWrite_toWidthOf a l v
  rw [toWidthOf_of_fits hl hv] at ht
  rw [ht]
  obtain ⟨sp, i, x, -, -, rfl⟩ | ⟨i, x, -, -, rfl⟩ | ⟨r, x, rfl, -, rfl⟩ := State.hostWrite_cases ht
  · rw [State.hostWrite16_busy sp i x hbusy]
  · rw [State.hostWriteProb_busy i x hbusy]
  · rw [State.hostWriteCsr_busy x hbusy (hreg r rfl)]

/-- Settles O9. -/
theorem commandWhileBusyRecordsCodeTwo : Obligations.CommandWhileBusyRecordsCodeTwo := by
  intro s es w hbusy he
  rw [step_writeCsr he]
  exact congrArg _ (State.hostWriteCsr_cmd_busy (s := { s with events := es }) w hbusy)

/-- Settles O10: the width of the value fits its location, so the write reaches the busy test of that location; a read
changes nothing of the block. -/
theorem writeWhileBusyRecordsCodeThree : Obligations.WriteWhileBusyRecordsCodeThree := by
  refine ⟨fun s es a l v hbusy hl hv hreg he => ?_, fun s t es a _ he h => ?_⟩
  · rw [step_host he, hostMove, hl]
    exact State.hostWrite_dropped (s := { s with events := es }) hbusy hl hv hreg
  · cases hl : resolve a with
    | none =>
      rw [step_host he, hostMove, hl] at h
      cases h
    | some l =>
      obtain rfl := Host.Outcome.next.inj ((step_read hl he).symm.trans h)
      exact (State.sameBlock_hostRead { s with events := es } l).status_eq

/-! ### The recorded error -/

/-- All that a command does to STATUS: it ends, or FORWARD goes on to its next stage (R191). -/
theorem exec_status {i : Instr} {s t : State} (h : exec i s = .next t) :
    t.status = s.status.complete ∨ t.status = s.status.advance := by
  obtain ⟨-, -, f, hf, rfl⟩ | ⟨-, f, hf, rfl⟩ := exec_cases h
  · rw [State.endStage_status, hf.status_eq, Status.endStage]
    split
    · exact .inl rfl
    · exact .inr rfl
  · rw [State.complete_status, hf.status_eq]
    exact .inl rfl

/-- No stage raises an error (R205). -/
theorem exec_keeps_error_cur {i : Instr} {s t : State} (h : exec i s = .next t) :
    t.status.err = s.status.err ∧ t.status.errCode = s.status.errCode ∧ t.status.cur = s.status.cur := by
  obtain ht | ht := exec_status h
  · rw [ht]; exact ⟨rfl, rfl, rfl⟩
  · rw [ht]; exact ⟨rfl, rfl, rfl⟩

/-- An error recorded in the first STATUS stands in the second, with the same code (R210, R212). -/
def Status.errorKept (t u : Status) : Prop := t.err = true → u.err = true ∧ u.errCode = t.errCode

theorem Status.errorKept_of_eq {t u : Status} (h : u = t) : t.errorKept u := by
  intro ht
  rw [h]
  exact ⟨ht, rfl⟩

/-- The first code stays (R210). -/
theorem Status.errorKept_raiseErr (t : Status) (c : ErrCode) : t.errorKept (t.raiseErr c) := fun ht =>
  ⟨rfl, by rw [Status.raiseErr_errCode, if_pos ht]⟩

/-- Accepting a command leaves ERR and ERRCODE (R192). -/
theorem Status.errorKept_accept (t : Status) (i : Instr) : t.errorKept (t.accept i) := fun ht => ⟨ht, rfl⟩

theorem coreTurn_errorKept {s t : State} (h : coreTurn s = .next t) : s.status.errorKept t.status := by
  obtain ⟨-, rfl⟩ | ⟨-, i, -, hexec⟩ := coreTurn_cases h
  · exact Status.errorKept_of_eq rfl
  · obtain ⟨herr, hcode, -⟩ := exec_keeps_error_cur hexec
    exact fun hs => ⟨herr.trans hs, hcode⟩

theorem HostWriteEffect.errorKept {s t : State} {l : Location} {v : Element} (h : HostWriteEffect s l v t) :
    s.status.errorKept t.status := by
  cases h with
  | dropped c => exact s.status.errorKept_raiseErr c
  | illegal => exact s.status.errorKept_raiseErr illegalCmd
  | accepted i => exact s.status.errorKept_accept i
  | stored16 sp i x => exact Status.errorKept_of_eq (State.setMem_status s sp _)
  | ignored | storedProb | storedQIn | storedDqIn => exact Status.errorKept_of_eq rfl

theorem hostMove_errorKept {m : HostMove} {s t : State} (hm : m ≠ .reset) (h : hostMove m s = .next t) :
    s.status.errorKept t.status := by
  obtain ⟨a, l, -, -, rfl⟩ | ⟨a, l, v, -, -, hw⟩ | ⟨a, l, -, -, hw⟩ | ⟨-, rfl⟩ | ⟨hreset, -⟩ :=
    hostMove_cases h
  · exact Status.errorKept_of_eq (s.sameBlock_hostRead l).status_eq
  · exact (State.hostWrite_effect hw).errorKept
  · exact (State.hostWrite_effect hw).errorKept
  · exact Status.errorKept_of_eq s.sameBlock_hostWait.status_eq
  · exact absurd hreset hm

/-- Settles O11: recording keeps a first code, a command touches neither field, and among the host's moves only a reset
clears them. -/
theorem errorsAreRecordedOnceAndSticky : Obligations.ErrorsAreRecordedOnceAndSticky := by
  refine ⟨fun s code => rfl, fun i s t => exec_keeps_error_cur, fun s t h hs hreset => ?_⟩
  obtain ⟨-, hc⟩ | ⟨es, -, hc⟩ | ⟨m, es, he, hm⟩ := step_cases h
  · exact coreTurn_errorKept hc hs
  · exact coreTurn_errorKept (s := { s with events := es }) hc hs
  · refine hostMove_errorKept (s := { s with events := es }) ?_ hm hs
    rintro rfl
    exact hreset es he

/-! ### Reset -/

/-- Every register but the hardwired CFG reads 0 (R28, R36). -/
theorem State.resetBlock_csr (s : State) {r : Csr} (hr : r ≠ .cfg) : s.resetBlock.csr r = 0#32 := by
  cases r with
  | status => exact (by decide : Status.reset.toWord = 0#32)
  | cfg => exact absurd rfl hr
  | cmd | qIn | qOut | dqIn | dqOut | amax => rfl

theorem State.resetBlock_read16 (s : State) (sp : Space16) (i : Nat) : s.resetBlock.read16 sp i = none := by
  cases sp <;> rfl

/-- Settles O19. -/
theorem resetMoveClearsTheBlock : Obligations.ResetMoveClearsTheBlock := by
  intro s es he
  have csr_zero (r : Csr) (hr : r ≠ .cfg) := State.resetBlock_csr { s with events := es } hr
  exact ⟨State.resetBlock { s with events := es }, step_host he, csr_zero .status (by decide),
    csr_zero .qIn (by decide), csr_zero .qOut (by decide), csr_zero .dqIn (by decide),
    csr_zero .dqOut (by decide), csr_zero .amax (by decide), rfl, rfl, rfl, rfl, rfl,
    State.resetBlock_read16 _, fun _ => rfl, rfl, rfl⟩

end Sys2Proof.Machine
end
